-- ==== Sys2Proof/Word.lean ====
section
/-! DEFINITION. The word types of CORE (spec/00_scope.md R10, spec/30_encoding.md R80). CORE has no signed quantity
(R12): a register is a bit vector of the width the spec gives it, compared and added as the unsigned integer it holds. -/

namespace Sys2Proof

/-- One byte of a serialised stimulus word (R67). -/
abbrev Byte := BitVec 8

/-- A value of a synthesizer register: an amplitude word, a frequency in hertz, or a code (R10, R63, R93). -/
abbrev Word := BitVec 32

/-- A stimulus word (R80). -/
abbrev StimWord := BitVec 64

end Sys2Proof
end

