-- ==== Sys2Proof/Config.lean ====
section
/-! DEFINITION. The implementation parameters of spec/00_scope.md R9 as one configuration record. A literal of the source is
a field with the source's value as its default (log 8). A parameter the spec calls OPEN is filled from an opaque constant
in the machine's own record: nothing can evaluate it, so a theorem holds for every value R9 allows (log 7). -/

namespace Sys2Proof.Config

/-- The configuration record of R9, a field for every row of its table. The machine takes the record
as an argument (spec/93_implementation_defined.md U9), so that it also runs on the values the spec's test vectors choose. -/
structure Params where
  /-- `WPM_CONST`. -/
  wpmConst : Nat := 240
  /-- `WPM_MIN`. -/
  wpmMin : Nat := 5
  /-- `WPM_MAX`. -/
  wpmMax : Nat := 60
  /-- `WPM_DEFAULT`. -/
  wpmDefault : Nat := 10
  /-- `UNITS_DOT`. -/
  unitsDot : Nat := 1
  /-- `UNITS_DASH`. -/
  unitsDash : Nat := 3
  /-- `UNITS_TRAIL`: the one silent unit folded into every mark, "fixed at 1". -/
  unitsTrail : Nat := 1
  /-- `UNITS_LSP`. -/
  unitsLsp : Nat := 3
  /-- `UNITS_WSP`. -/
  unitsWsp : Nat := 7
  /-- `MOD_TABLE_LEN`. -/
  modTableLen : Nat := 10
  /-- `MOD_CYCLE`, OPEN: the running ticks of one modulation cycle. -/
  modCycle : Nat
  /-- `MOD_YIELD`, OPEN: the length of the yield phase. -/
  modYield : Nat
  /-- `FOX_NUM_MAX`. -/
  foxNumMax : Nat := 5
  /-- `FOX_MAX_MIN`. -/
  foxMaxMin : Nat := 1
  /-- `FOX_MAX_MAX`. -/
  foxMaxMax : Nat := 5
  /-- `AMP_PCT_MAX`. -/
  ampPctMax : Nat := 100
  /-- `FREQ_MIN`, OPEN, in hertz. -/
  freqMin : Word
  /-- `FREQ_MAX`, OPEN, in hertz. -/
  freqMax : Word
  /-- `AMP_WORD_MAX`, OPEN. -/
  ampWordMax : Word
  /-- `ampWordOfPercent`, OPEN; R9 gives it the domain 0 to `AMP_PCT_MAX` (log 22). -/
  ampWordOfPercent : Nat → Word
  /-- `PROG_MAX`, the spec's choice D28. -/
  progMax : Nat := 64
  /-- `YEAR_MAX`, the spec's choice D21. -/
  yearMax : Nat := 99
  /-- `T_MORSE`, OPEN, read by no rule (R322; log 19). -/
  tMorse : Nat
  /-- `T_MOD`, OPEN, read by no rule (R323; log 19). -/
  tMod : Nat

/-- The constraints R9 puts on the parameters, with those of R166 and R167. The widths say that what a parameter bounds
fits the register R10 or R41 gives it, and `fox_range` that a legal `foxMax` exists (DEDUCED, log 7). -/
structure Params.Legal (p : Params) : Prop where
  const_pos : 0 < p.wpmConst
  wpm_one : 1 ≤ p.wpmMin
  wpm_const : p.wpmMax ≤ p.wpmConst
  default_range : p.wpmMin ≤ p.wpmDefault ∧ p.wpmDefault ≤ p.wpmMax
  dot_one : 1 ≤ p.unitsDot
  dash_one : 1 ≤ p.unitsDash
  trail_one : p.unitsTrail = 1
  lsp_one : 1 ≤ p.unitsLsp
  wsp_one : 1 ≤ p.unitsWsp
  table_one : 1 ≤ p.modTableLen
  cycle_two : 2 ≤ p.modCycle
  yield_one : 1 ≤ p.modYield
  yield_short : p.modYield ≤ p.modCycle - 1
  fox_range : p.foxMaxMin ≤ p.foxMaxMax
  fox_divides : ∀ foxMax, p.foxMaxMin ≤ foxMax → foxMax ≤ p.foxMaxMax → foxMax ∣ 60
  freq_range : p.freqMin ≤ p.freqMax
  amp_range : ∀ pct, pct ≤ p.ampPctMax → p.ampWordOfPercent pct ≤ p.ampWordMax
  prog_range : 1 ≤ p.progMax ∧ p.progMax ≤ 256
  mod_faster : p.tMod < p.tMorse
  default_width : p.wpmDefault < 2 ^ 8
  fox_width : p.foxMaxMax < 2 ^ 4
  unit_width : p.wpmConst / p.wpmMin < 2 ^ 8
  units_width : max (max p.unitsDot p.unitsDash) (max (p.unitsLsp - 1) (p.unitsWsp - 1)) < 2 ^ 4
  table_width : p.modTableLen ≤ 2 ^ 8
  cycle_width : p.modCycle ≤ 2 ^ 16

/-- Free value behind `MOD_CYCLE` (DESIGN CHOICE: any value, log 7). -/
opaque freeModCycle : Nat
/-- Free value behind `MOD_YIELD` (log 7). -/
opaque freeModYield : Nat
/-- Free value behind one end of the frequency range (log 7). -/
opaque freeFreqA : Word
/-- Free value behind the other end of the frequency range (log 7). -/
opaque freeFreqB : Word
/-- Free value of `AMP_WORD_MAX` (log 7). -/
opaque freeAmpWordMax : Word
/-- Free value behind `ampWordOfPercent` (log 7). -/
opaque freeAmpWordOfPercent : Nat → Word

/-- Free value of `T_MOD` (log 19). -/
opaque freeTMod : Nat
/-- Free value behind `T_MORSE` (log 19). -/
opaque freeTMorse : Nat

/-- The parameters of this machine: the defaults of R9, and for the OPEN parameters arbitrary values under the constraints
of R9. Every legal choice of these is the image of some free values, and every image is legal. -/
def params : Params where
  modCycle := 2 + freeModCycle % (2 ^ 16 - 1)
  modYield := 1 + freeModYield % (1 + freeModCycle % (2 ^ 16 - 1))
  freqMin := if freeFreqA ≤ freeFreqB then freeFreqA else freeFreqB
  freqMax := if freeFreqA ≤ freeFreqB then freeFreqB else freeFreqA
  ampWordMax := freeAmpWordMax
  ampWordOfPercent := fun pct =>
    if freeAmpWordOfPercent pct ≤ freeAmpWordMax then freeAmpWordOfPercent pct else freeAmpWordMax
  tMorse := freeTMod + 1 + freeTMorse
  tMod := freeTMod

/-- Free values of the synthesizer's write buffer after reset, by register code (R43, R301; log 6). -/
opaque synBufAtReset : Nat → Word
/-- Free values in effect in the synthesizer after reset, by register code (R43, R301; log 6). -/
opaque synActAtReset : Nat → Word
/-- Free value of the window alarm after reset: the seven fields of a DateTime in 36 bits (R44; log 6). -/
opaque rtcAlarm1AtReset : BitVec 36
/-- Free value of the slot alarm after reset (R44; log 6). -/
opaque rtcAlarm2AtReset : BitVec 6

end Sys2Proof.Config
end

