-- ==== Sys2Proof/Syntax.lean ====
section
/-! DEFINITION. The syntax of CORE: the 28 operations and the 4 Morse symbols of spec/30_encoding.md R82 and R88, one
constructor of `Instr` for each row of spec/opcode_table.json. An operand has exactly the width of its field (R81), so a
field may carry a value outside its legal range; the operation's own rule rejects it (R84). -/

namespace Sys2Proof

/-- The two environment response bits of a stimulus word (spec/00_scope.md R14): whether the synthesizer transactions and
the clock-chip alarm writes of this operation succeed. -/
structure Resp where
  synOk : Bool
  rtcOk : Bool
deriving DecidableEq, Repr

/-- A DateTime (spec/00_scope.md R15), each field as wide as format D carries it (R81; log 15). -/
structure DateTime where
  second : BitVec 6
  minute : BitVec 6
  hour : BitVec 5
  date : BitVec 5
  month : BitVec 4
  year : BitVec 7
  weekday : BitVec 3
deriving DecidableEq, Repr

/-- A Morse symbol of the CallSignProgram (R88). -/
inductive Symbol where
  | dot
  | dash
  | lsp
  | wsp
deriving DecidableEq, Repr

/-- An instruction of CORE. The 28 operations carry the response bits of their word (R14, R80); the four symbols are
entries of the ROM `prog` and have no operand (R175 to R178; log 4). -/
inductive Instr where
  | nop (r : Resp)
  | tickMorse (r : Resp)
  | tickMod (r : Resp)
  | evalWindow (r : Resp) (now : DateTime)
  | evalSlot (r : Resp) (minute : BitVec 6)
  | readerClaim (r : Resp)
  | readerRelease (r : Resp)
  | synSetfreq (r : Resp) (hz : BitVec 32)
  | synSetamp (r : Resp) (value : BitVec 8)
  | synKeyon (r : Resp)
  | synKeyoff (r : Resp)
  | synPwrdown (r : Resp)
  | synPwrup (r : Resp)
  | ccEnable (r : Resp) (band : BitVec 2)
  | ccDisable (r : Resp)
  | reloadBegin (r : Resp)
  | reloadEnd (r : Resp)
  | cfgWpm (r : Resp) (value : BitVec 8)
  | cfgMorseEn (r : Resp) (en : Bool)
  | cfgProgLen (r : Resp) (len : BitVec 16)
  | cfgProgSym (r : Resp) (index : BitVec 8) (sym : Symbol)
  | cfgModEn (r : Resp) (en : Bool)
  | cfgModTab (r : Resp) (index : BitVec 8) (word : BitVec 32)
  | cfgFreq (r : Resp) (hz : BitVec 32)
  | cfgAmp (r : Resp) (value : BitVec 8)
  | cfgSlot (r : Resp) (foxNumber : BitVec 4) (foxMax : BitVec 4) (transmitMinute : BitVec 4)
  | cfgWinStart (r : Resp) (dt : DateTime)
  | cfgWinStop (r : Resp) (dt : DateTime)
  | dot
  | dash
  | lsp
  | wsp
deriving DecidableEq, Repr

end Sys2Proof
end

