-- ==== Sys2Proof/WellFormed.lean ====
section
/-! DEFINITION. Where an instruction may stand. Operands have exactly the width of their fields, so nothing is left to
check about them; what an ill-formed term gets wrong is its PLACE: an operation is presented as a 64-bit stimulus word
(spec/30_encoding.md R80), a symbol stands as a 2-bit entry of the CallSignProgram (R88), and neither can take the
other's place. -/

namespace Sys2Proof

/-- `i` is one of the 28 operations, so it can be presented as a stimulus word (R80, R82). -/
def Instr.isOperation : Instr → Bool
  | .nop _ | .tickMorse _ | .tickMod _ | .evalWindow _ _ | .evalSlot _ _ | .readerClaim _ | .readerRelease _ => true
  | .synSetfreq _ _ | .synSetamp _ _ | .synKeyon _ | .synKeyoff _ | .synPwrdown _ | .synPwrup _ => true
  | .ccEnable _ _ | .ccDisable _ | .reloadBegin _ | .reloadEnd _ | .cfgWpm _ _ | .cfgMorseEn _ _ => true
  | .cfgProgLen _ _ | .cfgProgSym _ _ _ | .cfgModEn _ _ | .cfgModTab _ _ _ | .cfgFreq _ _ | .cfgAmp _ _ => true
  | .cfgSlot _ _ _ _ | .cfgWinStart _ _ | .cfgWinStop _ _ => true
  | .dot | .dash | .lsp | .wsp => false

/-- `i` is one of the four symbols, so it can stand in the ROM `prog` (R88). -/
def Instr.isSymbol : Instr → Bool
  | .dot | .dash | .lsp | .wsp => true
  | .nop _ | .tickMorse _ | .tickMod _ | .evalWindow _ _ | .evalSlot _ _ | .readerClaim _ | .readerRelease _ => false
  | .synSetfreq _ _ | .synSetamp _ _ | .synKeyon _ | .synKeyoff _ | .synPwrdown _ | .synPwrup _ => false
  | .ccEnable _ _ | .ccDisable _ | .reloadBegin _ | .reloadEnd _ | .cfgWpm _ _ | .cfgMorseEn _ _ => false
  | .cfgProgLen _ _ | .cfgProgSym _ _ _ | .cfgModEn _ _ | .cfgModTab _ _ _ | .cfgFreq _ _ | .cfgAmp _ _ => false
  | .cfgSlot _ _ _ _ | .cfgWinStart _ _ | .cfgWinStop _ _ => false

end Sys2Proof
end

