-- ==== Sys2Proof/Decode.lean ====
section
/-! DEFINITION. The decoder and the encoder of stimulus words and of Morse symbols, from the tables of
spec/30_encoding.md R80 to R88. -/

namespace Sys2Proof

/-! ## Fields -/

/-- The opcode `w[63:56]` (R80). -/
def opcodeOf (w : StimWord) : BitVec 8 := w.extractLsb' 56 8

/-- The response bits, `w[55]` and `w[54]` (R80). -/
def respOf (w : StimWord) : Resp := ⟨w.getLsbD 55, w.getLsbD 54⟩

/-- The DateTime of format D (R81), assembled in the order R84 gives. -/
def dateTimeOf (w : StimWord) : DateTime where
  second := w.extractLsb' 0 6
  minute := w.extractLsb' 6 6
  hour := w.extractLsb' 12 5
  date := w.extractLsb' 17 5
  month := w.extractLsb' 22 4
  year := w.extractLsb' 26 7
  weekday := w.extractLsb' 33 3

/-- The symbol with a 2-bit code (R88: all four codes are legal). -/
def symbolOfCode (c : BitVec 2) : Symbol :=
  match c.toNat with
  | 0 => .dot
  | 1 => .dash
  | 2 => .lsp
  | _ => .wsp

/-- The 2-bit code of a symbol (R88). -/
def Symbol.code : Symbol → BitVec 2
  | .dot => 0b00
  | .dash => 0b01
  | .lsp => 0b10
  | .wsp => 0b11

/-- The instruction a ROM entry stands for. -/
def Symbol.instr : Symbol → Instr
  | .dot => .dot
  | .dash => .dash
  | .lsp => .lsp
  | .wsp => .wsp

/-! ## Decoding -/

/-- Why a word selects no operation (R85, R86). -/
inductive DecodeError where
  /-- The opcode is outside the table of R82. -/
  | unassignedOpcode (c : BitVec 8)
  /-- A listed opcode with a non-zero reserved payload bit. -/
  | reservedBits (c : BitVec 8)
  /-- Fewer than eight bytes: no stimulus word (R67, R80; log 17). -/
  | truncated
deriving DecidableEq, Repr

/-- The instruction `i` if every payload bit from `k` up to bit 53 is zero. In each format of R81 the fields fill the low
`k` bits without a gap, so these are the reserved bits (R85). -/
def reservedAbove (k : Nat) (w : StimWord) (i : Instr) : Except DecodeError Instr :=
  if w.extractLsb' k (54 - k) = 0 then .ok i else .error (.reservedBits (opcodeOf w))

/-- The operation a stimulus word selects, or why it selects none (R82, R85). -/
def decode (w : StimWord) : Except DecodeError Instr :=
  match (opcodeOf w).toNat with
  | 0x00 => reservedAbove 0 w (.nop (respOf w))
  | 0x01 => reservedAbove 0 w (.tickMorse (respOf w))
  | 0x02 => reservedAbove 0 w (.tickMod (respOf w))
  | 0x03 => reservedAbove 36 w (.evalWindow (respOf w) (dateTimeOf w))
  | 0x04 => reservedAbove 6 w (.evalSlot (respOf w) (w.extractLsb' 0 6))
  | 0x08 => reservedAbove 0 w (.readerClaim (respOf w))
  | 0x09 => reservedAbove 0 w (.readerRelease (respOf w))
  | 0x10 => reservedAbove 32 w (.synSetfreq (respOf w) (w.extractLsb' 0 32))
  | 0x11 => reservedAbove 8 w (.synSetamp (respOf w) (w.extractLsb' 0 8))
  | 0x12 => reservedAbove 0 w (.synKeyon (respOf w))
  | 0x13 => reservedAbove 0 w (.synKeyoff (respOf w))
  | 0x14 => reservedAbove 0 w (.synPwrdown (respOf w))
  | 0x15 => reservedAbove 0 w (.synPwrup (respOf w))
  | 0x16 => reservedAbove 2 w (.ccEnable (respOf w) (w.extractLsb' 0 2))
  | 0x17 => reservedAbove 0 w (.ccDisable (respOf w))
  | 0x20 => reservedAbove 0 w (.reloadBegin (respOf w))
  | 0x21 => reservedAbove 0 w (.reloadEnd (respOf w))
  | 0x22 => reservedAbove 8 w (.cfgWpm (respOf w) (w.extractLsb' 0 8))
  | 0x23 => reservedAbove 1 w (.cfgMorseEn (respOf w) (w.getLsbD 0))
  | 0x24 => reservedAbove 16 w (.cfgProgLen (respOf w) (w.extractLsb' 0 16))
  | 0x25 => reservedAbove 10 w (.cfgProgSym (respOf w) (w.extractLsb' 0 8) (symbolOfCode (w.extractLsb' 8 2)))
  | 0x26 => reservedAbove 1 w (.cfgModEn (respOf w) (w.getLsbD 0))
  | 0x27 => reservedAbove 40 w (.cfgModTab (respOf w) (w.extractLsb' 0 8) (w.extractLsb' 8 32))
  | 0x28 => reservedAbove 32 w (.cfgFreq (respOf w) (w.extractLsb' 0 32))
  | 0x29 => reservedAbove 8 w (.cfgAmp (respOf w) (w.extractLsb' 0 8))
  | 0x2A => reservedAbove 12 w (.cfgSlot (respOf w) (w.extractLsb' 0 4) (w.extractLsb' 4 4) (w.extractLsb' 8 4))
  | 0x2B => reservedAbove 36 w (.cfgWinStart (respOf w) (dateTimeOf w))
  | 0x2C => reservedAbove 36 w (.cfgWinStop (respOf w) (dateTimeOf w))
  | _ => .error (.unassignedOpcode (opcodeOf w))

/-- The instruction a 2-bit ROM entry is (R88). -/
def decodeSymbol (c : BitVec 2) : Instr := (symbolOfCode c).instr

/-! ## Encoding -/

/-- The opcode of an operation (R82); a symbol has none. -/
def Instr.opcode : Instr → BitVec 8
  | .nop _ => 0x00
  | .tickMorse _ => 0x01
  | .tickMod _ => 0x02
  | .evalWindow _ _ => 0x03
  | .evalSlot _ _ => 0x04
  | .readerClaim _ => 0x08
  | .readerRelease _ => 0x09
  | .synSetfreq _ _ => 0x10
  | .synSetamp _ _ => 0x11
  | .synKeyon _ => 0x12
  | .synKeyoff _ => 0x13
  | .synPwrdown _ => 0x14
  | .synPwrup _ => 0x15
  | .ccEnable _ _ => 0x16
  | .ccDisable _ => 0x17
  | .reloadBegin _ => 0x20
  | .reloadEnd _ => 0x21
  | .cfgWpm _ _ => 0x22
  | .cfgMorseEn _ _ => 0x23
  | .cfgProgLen _ _ => 0x24
  | .cfgProgSym _ _ _ => 0x25
  | .cfgModEn _ _ => 0x26
  | .cfgModTab _ _ _ => 0x27
  | .cfgFreq _ _ => 0x28
  | .cfgAmp _ _ => 0x29
  | .cfgSlot _ _ _ _ => 0x2A
  | .cfgWinStart _ _ => 0x2B
  | .cfgWinStop _ _ => 0x2C
  | .dot | .dash | .lsp | .wsp => 0xFF

/-- The response bits an operation's word carries (R80). A symbol carries none; the value given for it is never
encoded. -/
def Instr.resp : Instr → Resp
  | .nop r | .tickMorse r | .tickMod r | .evalWindow r _ | .evalSlot r _ | .readerClaim r | .readerRelease r => r
  | .synSetfreq r _ | .synSetamp r _ | .synKeyon r | .synKeyoff r | .synPwrdown r | .synPwrup r => r
  | .ccEnable r _ | .ccDisable r | .reloadBegin r | .reloadEnd r | .cfgWpm r _ | .cfgMorseEn r _ => r
  | .cfgProgLen r _ | .cfgProgSym r _ _ | .cfgModEn r _ | .cfgModTab r _ _ | .cfgFreq r _ | .cfgAmp r _ => r
  | .cfgSlot r _ _ _ | .cfgWinStart r _ | .cfgWinStop r _ => r
  | .dot | .dash | .lsp | .wsp => ⟨true, true⟩

/-- A DateTime laid out by format D (R81), as an integer. -/
def DateTime.payload (d : DateTime) : Nat :=
  d.second.toNat + d.minute.toNat * 2 ^ 6 + d.hour.toNat * 2 ^ 12 + d.date.toNat * 2 ^ 17 + d.month.toNat * 2 ^ 22
    + d.year.toNat * 2 ^ 26 + d.weekday.toNat * 2 ^ 33

/-- The payload `w[53:0]` of an operation's word, as an integer: each field times the weight of its lowest bit (R81). -/
def Instr.payload : Instr → Nat
  | .nop _ | .tickMorse _ | .tickMod _ | .readerClaim _ | .readerRelease _ => 0
  | .synKeyon _ | .synKeyoff _ | .synPwrdown _ | .synPwrup _ | .ccDisable _ | .reloadBegin _ | .reloadEnd _ => 0
  | .evalWindow _ d | .cfgWinStart _ d | .cfgWinStop _ d => d.payload
  | .evalSlot _ minute => minute.toNat
  | .synSetfreq _ hz | .cfgFreq _ hz => hz.toNat
  | .synSetamp _ value | .cfgAmp _ value | .cfgWpm _ value => value.toNat
  | .ccEnable _ band => band.toNat
  | .cfgMorseEn _ en | .cfgModEn _ en => en.toNat
  | .cfgProgLen _ len => len.toNat
  | .cfgProgSym _ index sym => index.toNat + sym.code.toNat * 2 ^ 8
  | .cfgModTab _ index word => index.toNat + word.toNat * 2 ^ 8
  | .cfgSlot _ foxNumber foxMax transmitMinute =>
    foxNumber.toNat + foxMax.toNat * 2 ^ 4 + transmitMinute.toNat * 2 ^ 8
  | .dot | .dash | .lsp | .wsp => 0

/-- The stimulus word of an operation (R80, R81). -/
def encode (i : Instr) : StimWord :=
  BitVec.ofNat 64 (i.payload + i.resp.rtcOk.toNat * 2 ^ 54 + i.resp.synOk.toNat * 2 ^ 55 + i.opcode.toNat * 2 ^ 56)

/-- The 2-bit ROM entry of a symbol (R88). An operation has none; the value given for it is never used. -/
def encodeSymbol : Instr → BitVec 2
  | .dot => 0b00
  | .dash => 0b01
  | .lsp => 0b10
  | .wsp => 0b11
  | .nop _ | .tickMorse _ | .tickMod _ | .evalWindow _ _ | .evalSlot _ _ | .readerClaim _ | .readerRelease _ => 0
  | .synSetfreq _ _ | .synSetamp _ _ | .synKeyon _ | .synKeyoff _ | .synPwrdown _ | .synPwrup _ => 0
  | .ccEnable _ _ | .ccDisable _ | .reloadBegin _ | .reloadEnd _ | .cfgWpm _ _ | .cfgMorseEn _ _ => 0
  | .cfgProgLen _ _ | .cfgProgSym _ _ _ | .cfgModEn _ _ | .cfgModTab _ _ _ | .cfgFreq _ _ | .cfgAmp _ _ => 0
  | .cfgSlot _ _ _ _ | .cfgWinStart _ _ | .cfgWinStop _ _ => 0

/-! ## The byte form of a word -/

/-- The eight bytes of a stimulus word, big-endian: byte 0 is `w[63:56]`, the opcode (R67). -/
def wordBytes (w : StimWord) : List Byte :=
  [w.extractLsb' 56 8, w.extractLsb' 48 8, w.extractLsb' 40 8, w.extractLsb' 32 8,
   w.extractLsb' 24 8, w.extractLsb' 16 8, w.extractLsb' 8 8, w.extractLsb' 0 8]

/-- The operation in the first eight bytes and the bytes after it (R67, R80). -/
def decodeBytes : List Byte → Except DecodeError (Instr × List Byte)
  | b0 :: b1 :: b2 :: b3 :: b4 :: b5 :: b6 :: b7 :: rest =>
    match decode (b0 ++ b1 ++ b2 ++ b3 ++ b4 ++ b5 ++ b6 ++ b7) with
    | .ok i => .ok (i, rest)
    | .error e => .error e
  | _ => .error .truncated

/-- The bytes of an operation (R67). -/
def encodeBytes (i : Instr) : List Byte := wordBytes (encode i)

/-! ## The opcode table's rows -/

/-- A row of spec/opcode_table.json: the mask and the match of R83. -/
structure OpcodeRow where
  mask : BitVec 64
  pattern : BitVec 64
deriving DecidableEq, Repr

/-- The 28 operation rows of spec/opcode_table.json, in its order (R83). The decoder does not read them: they are the
table it is held against. -/
def opcodeRows : List OpcodeRow :=
  [⟨0xFF3FFFFFFFFFFFFF, 0x0000000000000000⟩, ⟨0xFF3FFFFFFFFFFFFF, 0x0100000000000000⟩,
   ⟨0xFF3FFFFFFFFFFFFF, 0x0200000000000000⟩, ⟨0xFF3FFFF000000000, 0x0300000000000000⟩,
   ⟨0xFF3FFFFFFFFFFFC0, 0x0400000000000000⟩, ⟨0xFF3FFFFFFFFFFFFF, 0x0800000000000000⟩,
   ⟨0xFF3FFFFFFFFFFFFF, 0x0900000000000000⟩, ⟨0xFF3FFFFF00000000, 0x1000000000000000⟩,
   ⟨0xFF3FFFFFFFFFFF00, 0x1100000000000000⟩, ⟨0xFF3FFFFFFFFFFFFF, 0x1200000000000000⟩,
   ⟨0xFF3FFFFFFFFFFFFF, 0x1300000000000000⟩, ⟨0xFF3FFFFFFFFFFFFF, 0x1400000000000000⟩,
   ⟨0xFF3FFFFFFFFFFFFF, 0x1500000000000000⟩, ⟨0xFF3FFFFFFFFFFFFC, 0x1600000000000000⟩,
   ⟨0xFF3FFFFFFFFFFFFF, 0x1700000000000000⟩]
  ++
  [⟨0xFF3FFFFFFFFFFFFF, 0x2000000000000000⟩, ⟨0xFF3FFFFFFFFFFFFF, 0x2100000000000000⟩,
   ⟨0xFF3FFFFFFFFFFF00, 0x2200000000000000⟩, ⟨0xFF3FFFFFFFFFFFFE, 0x2300000000000000⟩,
   ⟨0xFF3FFFFFFFFF0000, 0x2400000000000000⟩, ⟨0xFF3FFFFFFFFFFC00, 0x2500000000000000⟩,
   ⟨0xFF3FFFFFFFFFFFFE, 0x2600000000000000⟩, ⟨0xFF3FFF0000000000, 0x2700000000000000⟩,
   ⟨0xFF3FFFFF00000000, 0x2800000000000000⟩, ⟨0xFF3FFFFFFFFFFF00, 0x2900000000000000⟩,
   ⟨0xFF3FFFFFFFFFF000, 0x2A00000000000000⟩, ⟨0xFF3FFFF000000000, 0x2B00000000000000⟩,
   ⟨0xFF3FFFF000000000, 0x2C00000000000000⟩]

/-! ## The table's numbering -/

/-- The instruction the decoder reads from the bits `w` of a row that the table gives `nbits` bits. A symbol row has 2
bits (one byte at most); every other row is a stimulus word, given to the decoder as its eight bytes (log 18). -/
def decodeTableWord (nbits w : Nat) : Option Instr :=
  if nbits ≤ 8 then
    if w < 4 then some (decodeSymbol (BitVec.ofNat 2 w)) else none
  else if w < 2 ^ 64 then
    match decodeBytes (wordBytes (BitVec.ofNat 64 w)) with
    | .ok (i, _) => some i
    | .error _ => none
  else none

end Sys2Proof
end

