-- ==== Sys2Proof/Machine/State.lean ====
section
/-! DEFINITION. The state of CORE as plain data: every field of spec/10_state.md R21 to R44, and four fields of the model
that carry the inputs and outputs of `step(S, w) = (S', flags, out)` (spec/00_scope.md R11). -/

namespace Sys2Proof.Machine

/-! ## The values of the enumerated fields -/

/-- The two modes (R40, R283). -/
inductive Mode where
  | run
  | config
deriving DecidableEq, Repr

/-- `continuousCarrierBand` (R33): three values, the fourth code never occurs (U6). -/
inductive CcBand where
  | none
  | band2m
  | band80m
deriving DecidableEq, Repr

/-- The DeferredAction (R36): three values, the fourth code never occurs (U6). -/
inductive Deferred where
  | none
  | turnOn
  | turnOff
deriving DecidableEq, Repr

/-- The state of the window FSM (R37): three values, the fourth code never occurs (U6). -/
inductive WinState where
  | notSet
  | inWindow
  | outOfWindow
deriving DecidableEq, Repr

/-- The four registers of the synthesizer as the spec abstracts it (R43, R63). -/
inductive SynReg where
  | key
  | amp
  | freq
  | power
deriving DecidableEq, Repr

/-- The contents of the four synthesizer registers (R43; log 16). -/
structure SynImage where
  key : Word
  amp : Word
  freq : Word
  power : Word
deriving DecidableEq, Repr

/-- The notification codes (R94). -/
inductive Note where
  | windowEntered
  | windowLeft
  | slotOn
  | slotOff
deriving DecidableEq, Repr

/-- The records of `out` (R92). -/
inductive OutRecord where
  /-- `SYN_W(r, v)`: a synthesizer register write. -/
  | synW (r : SynReg) (v : Word)
  /-- `SYN_APPLY`: the commit step. -/
  | synApply
  /-- `RTC_A1(dt)`: a successful window-alarm write. -/
  | rtcA1 (dt : DateTime)
  /-- `RTC_A2(m)`: a successful minute-alarm write. -/
  | rtcA2 (m : BitVec 6)
  /-- `NOTE(c)`: a notification to the status sink. -/
  | note (c : Note)
deriving DecidableEq, Repr

/-! ## The state -/

/-- The state `S` of R20 of the machine with the parameters `p` of R9, and the model's own input and output ports. The
record is an argument (spec/93_implementation_defined.md U9), and the ROMs have its sizes (log 8). -/
structure State.Of (p : Config.Params) where
  /-- R21: the program counter of the symbol stream. -/
  symbolIndex : BitVec 8
  /-- R22. -/
  unitsRemaining : BitVec 4
  /-- R23. -/
  curIsMark : Bool
  /-- R24. -/
  rateCount : BitVec 8
  /-- R25: base ticks per Morse unit. -/
  morseUnit : BitVec 8
  /-- R26. -/
  resetFlag : Bool
  /-- R27. -/
  morseRunning : Bool
  /-- R28. -/
  modPhase : BitVec 16
  /-- R29. -/
  modIndex : BitVec 8
  /-- R30: an output level towards the reader. -/
  busAvailable : Bool
  /-- R31. -/
  keyed : Bool
  /-- R32. -/
  modulationEnabled : Bool
  /-- R33. -/
  ccBand : CcBand
  /-- R34. -/
  poweredDown : Bool
  /-- R35: the BusClaim. -/
  claimedByReader : Bool
  /-- R36: the one-entry deferred-action queue. -/
  deferred : Deferred
  /-- R37. -/
  winState : WinState
  /-- R38. -/
  withinSlot : Bool
  /-- R39. -/
  winAlarmRetry : Bool
  /-- R40. -/
  mode : Mode
  /-- R41. -/
  cfgWpm : BitVec 8
  /-- R41. -/
  cfgMorseEn : Bool
  /-- R41. -/
  cfgProgLen : BitVec 9
  /-- R41. -/
  cfgModEn : Bool
  /-- R41. -/
  cfgFreq : Word
  /-- R41. -/
  cfgAmpPct : BitVec 8
  /-- R41. -/
  cfgFoxNumber : BitVec 4
  /-- R41. -/
  cfgFoxMax : BitVec 4
  /-- R41. -/
  cfgTransmitMinute : BitVec 4
  /-- R41; its `minute` is `startMinute` (R208). -/
  cfgWinStart : DateTime
  /-- R41. -/
  cfgWinStop : DateTime
  /-- R42: the CallSignProgram ROM. -/
  prog : Vector Symbol p.progMax
  /-- R42: the amplitude table ROM. -/
  modTab : Vector Word p.modTableLen
  /-- R43: the synthesizer's write buffer. -/
  synBuf : SynImage
  /-- R43: the synthesizer's values in effect. -/
  synAct : SynImage
  /-- R44: the target of the window alarm. -/
  rtcAlarm1 : DateTime
  /-- R44: the target of the slot alarm, a minute. -/
  rtcAlarm2 : BitVec 6
  /-- The model's own: the stimulus words the environment has still to present (R11; log 1). -/
  stimulus : List StimWord
  /-- The model's own: the response bits of the operation in progress (R14; log 3). -/
  resp : Resp
  /-- The model's own: the result flags of the last operation (R90; log 2). -/
  flags : BitVec 8
  /-- The model's own: the output records of the last operation (R92; log 2). -/
  out : List OutRecord
deriving DecidableEq, Repr

/-- The state of this machine: that of its own parameters. -/
abbrev State := State.Of Config.params

/-! ## How a step can stop -/

/-- The faults of the model. CORE itself has none (R270, R272); these stop a run whose state breaks the invariant R47 of
the spec, where the spec forbids giving a value (R61, R62, U4; log 10). -/
inductive Fault where
  /-- `ProgRead(i)` with `i` outside `0 .. cfgProgLen-1` or outside the ROM: raised by TICK_MORSE at a unit step that
  fetches. Safe: the model stops where the spec gives no value, and R47 (c) makes it unreachable. -/
  | progReadOutOfRange
  /-- `TabRead(i)` with `i` outside `0 .. MOD_TABLE_LEN-1`: raised by TICK_MOD at its write tick. Safe: R47 (e) makes it
  unreachable. -/
  | tabReadOutOfRange
deriving DecidableEq, Repr

/-- The refusals of the model. -/
inductive Refusal where
  /-- An instruction whose meaning is not modelled yet: raised by exec's arm. Safe. -/
  | notModelled (mnemonic : String)
  /-- `convertToUnit(0)`, which the spec leaves undefined (R167, U3; log 11): raised by RELOAD_END with `cfgWpm` 0. Safe:
  R47 (i) makes it unreachable. -/
  | unitOfZeroWpm
  /-- A remainder modulo `cfgFoxMax` 0, which R12 leaves undefined (R208; log 12): raised by EVAL_SLOT. Safe: R47 (i)
  makes it unreachable. -/
  | slotModuloZero
deriving DecidableEq, Repr

/-! ## Reset -/

/-- A DateTime from the 36 bits of its seven fields, in the order of format D. -/
def dateTimeOfBits (b : BitVec 36) : DateTime where
  second := b.extractLsb' 0 6
  minute := b.extractLsb' 6 6
  hour := b.extractLsb' 12 5
  date := b.extractLsb' 17 5
  month := b.extractLsb' 22 4
  year := b.extractLsb' 26 7
  weekday := b.extractLsb' 33 3

/-- A synthesizer image from the values of its registers by code (R93). -/
def synImageOf (f : Nat → Word) : SynImage := ⟨f 0, f 1, f 2, f 3⟩

/-- The state right after power-on of the machine with the parameters `p`: the table of R48. The configuration registers and
the ROMs, which R48 leaves "unspecified, legal", hold the legal values of log 5; the chip images, which R301 forbids assuming anything about, hold
free values (log 6). -/
def State.Of.reset (p : Config.Params) : State.Of p where
  symbolIndex := 0
  unitsRemaining := 0
  curIsMark := false
  rateCount := 0
  morseUnit := BitVec.ofNat 8 (p.wpmConst / p.wpmDefault)
  resetFlag := false
  morseRunning := false
  modPhase := 0
  modIndex := 0
  busAvailable := true
  keyed := false
  modulationEnabled := false
  ccBand := .none
  poweredDown := false
  claimedByReader := false
  deferred := .none
  winState := .notSet
  withinSlot := false
  winAlarmRetry := false
  mode := .config
  cfgWpm := BitVec.ofNat 8 p.wpmDefault
  cfgMorseEn := true
  cfgProgLen := 1
  cfgModEn := false
  cfgFreq := p.freqMin
  cfgAmpPct := 0
  cfgFoxNumber := 0
  cfgFoxMax := BitVec.ofNat 4 p.foxMaxMin
  cfgTransmitMinute := 0
  cfgWinStart := ⟨0, 0, 0, 1, 1, 0, 1⟩
  cfgWinStop := ⟨0, 0, 0, 1, 1, 0, 1⟩
  prog := Vector.replicate p.progMax .dot
  modTab := Vector.replicate p.modTableLen 0
  synBuf := synImageOf Config.synBufAtReset
  synAct := synImageOf Config.synActAtReset
  rtcAlarm1 := dateTimeOfBits Config.rtcAlarm1AtReset
  rtcAlarm2 := Config.rtcAlarm2AtReset
  stimulus := []
  resp := ⟨true, true⟩
  flags := 0
  out := []

/-- The state right after power-on of this machine. -/
def State.reset : State := State.Of.reset Config.params

end Sys2Proof.Machine
end

