-- ==== Sys2Proof/Machine/Flags.lean ====
section
/-! DEFINITION. The eight result flags of an operation (spec/30_encoding.md R90, spec/60_exceptions.md R270, R271). -/

namespace Sys2Proof.Machine

/-- The result flags (R90). -/
inductive Flag where
  /-- A key change was denied the bus and stored as the deferred action. -/
  | deferred
  /-- An action other than a key change was denied the bus and dropped. -/
  | busy
  /-- A value or a state outside its domain. -/
  | invalid
  /-- A synthesizer transaction failed. -/
  | commSyn
  /-- A clock-chip alarm write failed. -/
  | commRtc
  /-- A slot alarm fired on neither boundary. -/
  | misaligned
  /-- The operation is not accepted in the current mode. -/
  | locked
  /-- A word that selects no operation (R85). -/
  | illegal
deriving DecidableEq, Repr

/-- The bit number of a flag (R90). -/
def Flag.bit : Flag → Nat
  | .deferred => 0
  | .busy => 1
  | .invalid => 2
  | .commSyn => 3
  | .commRtc => 4
  | .misaligned => 5
  | .locked => 6
  | .illegal => 7

/-- The flag vector with this one flag set. -/
def Flag.mask (f : Flag) : BitVec 8 := 1#8 <<< f.bit

/-- Whether a flag is set in a flag vector. -/
def Flag.isSet (f : Flag) (v : BitVec 8) : Bool := v.getLsbD f.bit

end Sys2Proof.Machine
end

