-- ==== Sys2Proof/Machine/Operands.lean ====
section
/-! DEFINITION. What the operands and the coded fields of the operations mean: numeric codes, legal ranges, the order of
DateTimes, the minute arithmetic. All quantities are unsigned integers (spec/00_scope.md R12, spec/30_encoding.md R84). -/

namespace Sys2Proof

/-! ## DateTimes (spec/00_scope.md R15, R16) -/

/-- `legal` of R15: each field in its own range, with no month-length check. -/
def DateTime.legal (d : DateTime) (p : Config.Params) : Bool :=
  decide (d.second.toNat ≤ 59) && decide (d.minute.toNat ≤ 59) && decide (d.hour.toNat ≤ 23)
    && decide (1 ≤ d.date.toNat) && decide (d.date.toNat ≤ 31) && decide (1 ≤ d.month.toNat)
    && decide (d.month.toNat ≤ 12) && decide (d.year.toNat ≤ p.yearMax) && decide (1 ≤ d.weekday.toNat)
    && decide (d.weekday.toNat ≤ 7)

/-- `key` of R16: the six fields that take part in the order, the weekday not among them. -/
def DateTime.key (d : DateTime) : List Nat :=
  [d.year.toNat, d.month.toNat, d.date.toNat, d.hour.toNat, d.minute.toNat, d.second.toNat]

/-- The lexicographic order of two lists of integers: decided at the first position where they differ. -/
def lexLess : List Nat → List Nat → Bool
  | a :: as, b :: bs => decide (a < b) || (decide (a = b) && lexLess as bs)
  | _, _ => false

/-- `a <lex b` of R16. -/
def DateTime.lexLt (a b : DateTime) : Bool := lexLess a.key b.key

/-- `a ==lex b` of R16. -/
def DateTime.lexEq (a b : DateTime) : Bool := decide (a.key = b.key)

/-- `a <=lex b` of R16. -/
def DateTime.lexLe (a b : DateTime) : Bool := a.lexLt b || a.lexEq b

/-- `inWindow` of R201: equality to the start is inside, equality to the stop outside. -/
def inWindow (start stop now : DateTime) : Bool := start.lexLe now && now.lexLt stop

end Sys2Proof

namespace Sys2Proof.Machine

/-! ## Numeric codes (R33, R36, R37, R40, R89, R92 to R94) -/

/-- The code of a mode (R40). -/
def Mode.code : Mode → BitVec 1
  | .run => 0
  | .config => 1

/-- The code of a continuous-carrier band (R33). -/
def CcBand.code : CcBand → BitVec 2
  | .none => 0
  | .band2m => 1
  | .band80m => 2

/-- The code of a deferred action (R36). -/
def Deferred.code : Deferred → BitVec 2
  | .none => 0
  | .turnOn => 1
  | .turnOff => 2

/-- The code of a window state (R37). -/
def WinState.code : WinState → BitVec 2
  | .notSet => 0
  | .inWindow => 1
  | .outOfWindow => 2

/-- The id of a synthesizer register (R93). -/
def SynReg.code : SynReg → Nat
  | .key => 0
  | .amp => 1
  | .freq => 2
  | .power => 3

/-- The code of a notification (R94). -/
def Note.code : Note → Nat
  | .windowEntered => 1
  | .windowLeft => 2
  | .slotOn => 3
  | .slotOff => 4

/-- The tag of an output record (R92). -/
def OutRecord.tag : OutRecord → Nat
  | .synW _ _ => 1
  | .synApply => 2
  | .rtcA1 _ => 3
  | .rtcA2 _ => 4
  | .note _ => 5

/-- `POWER` value `UP` (R63, R93). -/
def powerUp : Word := 0
/-- `POWER` value `DOWN` (R63, R93). -/
def powerDown : Word := 1
/-- `KEY` value off (R63, R93). -/
def keyValueOff : Word := 0
/-- `KEY` value on (R63, R93). -/
def keyValueOn : Word := 1

/-- The register of an image (R43). -/
def SynImage.get (m : SynImage) : SynReg → Word
  | .key => m.key
  | .amp => m.amp
  | .freq => m.freq
  | .power => m.power

/-- An image with one register replaced (R43). -/
def SynImage.set (m : SynImage) (r : SynReg) (v : Word) : SynImage :=
  match r with
  | .key => { m with key := v }
  | .amp => { m with amp := v }
  | .freq => { m with freq := v }
  | .power => { m with power := v }

/-- The band a CC_ENABLE operand names, if it is one of the two (R33, R89, R130). -/
def bandOfOperand (b : BitVec 2) : Option CcBand :=
  match b.toNat with
  | 1 => some .band2m
  | 2 => some .band80m
  | _ => none

/-! ## Legal operand values -/

/-- The wpm range of R248. -/
def wpmInRange (p : Config.Params) (value : BitVec 8) : Bool :=
  decide (p.wpmMin ≤ value.toNat) && decide (value.toNat ≤ p.wpmMax)

/-- The program lengths of R251: not empty, at most the ROM. -/
def progLenInRange (p : Config.Params) (len : BitVec 16) : Bool :=
  decide (1 ≤ len.toNat) && decide (len.toNat ≤ p.progMax)

/-- The frequency range of R126 and R255. -/
def freqInRange (p : Config.Params) (hz : Word) : Bool :=
  decide (p.freqMin ≤ hz) && decide (hz ≤ p.freqMax)

/-- The amplitude percents of R127 and R256. -/
def ampPctInRange (p : Config.Params) (value : BitVec 8) : Bool := decide (value.toNat ≤ p.ampPctMax)

/-- The legal operands of CFG_SLOT (R257). -/
def slotInRange (p : Config.Params) (foxNumber foxMax transmitMinute : BitVec 4) : Bool :=
  decide (foxNumber.toNat ≤ p.foxNumMax) && decide (p.foxMaxMin ≤ foxMax.toNat)
    && decide (foxMax.toNat ≤ p.foxMaxMax) && decide (transmitMinute.toNat < foxMax.toNat)

/-! ## Minutes of the hour (spec/44_scheduler.md R208 to R210, R223) -/

/-- `isOnMinute` of R208, for `foxMax > 0`. The difference may be negative; the remainder is the non-negative one of R12
(R223). -/
def isOnMinute (startMinute foxMax transmitMinute m : Nat) : Bool :=
  decide (((m : Int) - (startMinute : Int)) % (foxMax : Int) = (transmitMinute : Int))

/-- `isOffMinute` of R209: the minute before, modulo 60, is an on-minute. -/
def isOffMinute (startMinute foxMax transmitMinute m : Nat) : Bool :=
  isOnMinute startMinute foxMax transmitMinute (((m : Int) - 1) % 60).toNat

/-- The distance `k` of R210 in its closed form, for `foxMax > 0` (log 13). -/
def onMinuteDistance (startMinute foxMax transmitMinute m : Nat) : Nat :=
  let k0 := ((transmitMinute : Int) - ((m : Int) - (startMinute : Int))) % (foxMax : Int)
  if k0 = 0 then foxMax else k0.toNat

/-- `nextOnMinute` of R210. -/
def nextOnMinute (startMinute foxMax transmitMinute m : Nat) : Nat :=
  (m + onMinuteDistance startMinute foxMax transmitMinute m) % 60

/-- The minute after `m` (R215, R223). -/
def minuteAfter (m : Nat) : Nat := (m + 1) % 60

/-! ## The rate (spec/43_morse.md R167, R168) -/

/-- `convertToUnit` of R167: partial, no value at 0 (U3; log 11). -/
def convertToUnit (p : Config.Params) (wpm : Nat) : Option Nat := if wpm = 0 then none else some (p.wpmConst / wpm)

/-- `convertToWpm` of R168: partial, no value at 0 (U3; log 11). No operation of CORE evaluates it; the surrounding system
reports the rate with it. -/
def convertToWpm (p : Config.Params) (unit : Nat) : Option Nat :=
  if unit = 0 then none else some (p.wpmConst / unit)

/-! ## Counters -/

/-- `(x + 1 == limit) ? 0 : x + 1` of R152, R170 and R172. The comparison is between integers (R12, R185; log 9). -/
def wrapInc {n : Nat} (x : BitVec n) (limit : Nat) : BitVec n := if x.toNat + 1 = limit then 0 else x + 1

end Sys2Proof.Machine
end

