-- ==== Sys2Proof/Machine/Ops.lean ====
section
/-! DEFINITION. The operations every meaning is made of: the input and output ports, the synthesizer and clock-chip
transactions, the arbiter, the key primitives, the gate, the ROM reads. A condition is reported by `State.Of.raise`: CORE
has no trap entry and no return (spec/60_exceptions.md R272, R273). -/

namespace Sys2Proof.Machine

variable {p : Config.Params}

/-! ## Stimulus words in, results out -/

/-- The next stimulus word and the state without it (R11; log 1). -/
def State.Of.fetch (s : State.Of p) : Option (StimWord × State.Of p) :=
  match s.stimulus with
  | [] => none
  | w :: rest => some (w, { s with stimulus := rest })

/-- The start of an operation: its response bits are those of its word (R14), its flags are recomputed from zero (R45) and
its list of records is empty (R92). -/
def State.Of.startOp (r : Resp) (s : State.Of p) : State.Of p := { s with resp := r, flags := 0, out := [] }

/-- `flag F` of R13: set bit `F` of the result and go on. It is all there is of an exception in CORE: nothing is saved, no
mode changes and control goes nowhere (R272), so there is nothing to return from (R273). -/
def State.Of.raise (f : Flag) (s : State.Of p) : State.Of p := { s with flags := s.flags ||| f.mask }

/-- Append one record to `out` (R92). -/
def State.Of.emit (o : OutRecord) (s : State.Of p) : State.Of p := { s with out := s.out ++ [o] }

/-- `Note(c)` of R13. -/
def State.Of.notify (c : Note) (s : State.Of p) : State.Of p := s.emit (.note c)

/-- The effect of a word that selects no operation: flag ILLEGAL, `out` empty, nothing else (R85; log 14). -/
def illegalWord (s : State.Of p) : State.Of p := State.Of.raise .illegal { s with flags := 0, out := [] }

/-- An operation that acts in RUN mode only (R283): in CONFIG mode it sets LOCKED and does nothing else. -/
def inRun (r : Resp) (s : State.Of p) (body : State.Of p → Host.Outcome (State.Of p) Fault Refusal) :
    Host.Outcome (State.Of p) Fault Refusal :=
  if s.mode = .run then body (s.startOp r) else .next ((s.startOp r).raise .locked)

/-- An operation that acts in CONFIG mode only (R283): in RUN mode it sets LOCKED and does nothing else. -/
def inConfig (r : Resp) (s : State.Of p) (body : State.Of p → Host.Outcome (State.Of p) Fault Refusal) :
    Host.Outcome (State.Of p) Fault Refusal :=
  if s.mode = .config then body (s.startOp r) else .next ((s.startOp r).raise .locked)

/-- Go on with `f` where the first part answers a next state; a fault or a refusal stays. -/
def andThen (o : Host.Outcome (State.Of p) Fault Refusal) (f : State.Of p → State.Of p) :
    Host.Outcome (State.Of p) Fault Refusal :=
  match o with
  | .next s => .next (f s)
  | .fault e => .fault e
  | .refused e => .refused e

/-! ## The access primitives (spec/20_memory.md R61 to R66) -/

/-- `ProgRead(i)` of R61: no value outside `0 .. cfgProgLen-1` (U4; log 10). -/
def State.Of.progRead (s : State.Of p) (i : Nat) : Option Symbol := if i < s.cfgProgLen.toNat then s.prog[i]? else none

/-- `TabRead(i)` of R62: no value outside the table (U4; log 10). -/
def State.Of.tabRead (s : State.Of p) (i : Nat) : Option Word := s.modTab[i]?

/-- The first half of `SynTxn(r, v)`: the register write, into the write buffer (R64). -/
def State.Of.synWrite (r : SynReg) (v : Word) (s : State.Of p) : State.Of p :=
  { s with synBuf := s.synBuf.set r v, out := s.out ++ [.synW r v] }

/-- The second half of `SynTxn`: the commit step copies all four registers (R64, R72). -/
def State.Of.synCommit (s : State.Of p) : State.Of p := { s with synAct := s.synBuf, out := s.out ++ [.synApply] }

/-- `SynTxn(r, v)` of R64: called only where the bus is free and `synOk` holds. -/
def State.Of.synTxn (r : SynReg) (v : Word) (s : State.Of p) : State.Of p := (s.synWrite r v).synCommit

/-- `RtcArm1(dt)` of R66. -/
def State.Of.rtcArm1 (dt : DateTime) (s : State.Of p) : State.Of p :=
  if s.resp.rtcOk then State.Of.emit (.rtcA1 dt) { s with rtcAlarm1 := dt } else s.raise .commRtc

/-- `RtcArm2(m)` of R66. -/
def State.Of.rtcArm2 (m : Nat) (s : State.Of p) : State.Of p :=
  if s.resp.rtcOk then State.Of.emit (.rtcA2 (BitVec.ofNat 6 m)) { s with rtcAlarm2 := BitVec.ofNat 6 m }
  else s.raise .commRtc

/-! ## The arbiter (spec/40_arbiter.md R101 to R103) -/

/-- `tryClaim()` of R101: a test that changes nothing. -/
def State.Of.tryClaim (s : State.Of p) : Bool := !s.claimedByReader

/-- `setDeferred(a)` of R102: the push overwrites. -/
def State.Of.setDeferred (a : Deferred) (s : State.Of p) : State.Of p := { s with deferred := a }

/-- Steps (3) and (4) of the common gating R121: BUSY where the reader holds the bus, COMM_SYN where the transaction
fails, and only then the action. -/
def State.Of.gated (act : State.Of p → State.Of p) (s : State.Of p) : State.Of p :=
  if !s.tryClaim then s.raise .busy
  else if !s.resp.synOk then s.raise .commSyn
  else act s

/-! ## The key primitives (spec/41_synth_driver.md R122, R123) -/

/-- `keyOn()` of R122. -/
def State.Of.keyOn (s : State.Of p) : State.Of p :=
  if s.poweredDown then s.raise .invalid
  else if !s.tryClaim then (s.setDeferred .turnOn).raise .deferred
  else if !s.resp.synOk then s.raise .commSyn
  else { s.synTxn .key keyValueOn with keyed := true }

/-- `keyOff()` of R123. -/
def State.Of.keyOff (s : State.Of p) : State.Of p :=
  if !s.tryClaim then (s.setDeferred .turnOff).raise .deferred
  else if !s.resp.synOk then s.raise .commSyn
  else { s.synTxn .key keyValueOff with keyed := false }

/-- `drainDeferred()` of R103: the slot is cleared before the action runs. -/
def State.Of.drainDeferred (s : State.Of p) : State.Of p :=
  match s.deferred with
  | .none => s.setDeferred .none
  | .turnOn => (s.setDeferred .none).keyOn
  | .turnOff => (s.setDeferred .none).keyOff

/-! ## The gate (spec/43_morse.md R180, R181) -/

/-- `gate` of R180. -/
def State.Of.gate (s : State.Of p) : Bool :=
  decide (s.winState = .inWindow) && (decide (s.cfgFoxNumber = 0) || s.withinSlot) && decide (s.ccBand = .none)

/-- `GateUpdate()` of R181: acts on the edges of the gate only. -/
def State.Of.gateUpdate (s : State.Of p) : State.Of p :=
  if s.gate && !s.morseRunning then { s with morseRunning := true, resetFlag := true }
  else if !s.gate && s.morseRunning then State.Of.keyOff { s with morseRunning := false, resetFlag := false }
  else s

/-! ## The minutes of this configuration (spec/44_scheduler.md R208 to R210) -/

/-- `isOnMinute(m)` of R208 for the configured slot. -/
def State.Of.onMinute (s : State.Of p) (m : Nat) : Bool :=
  isOnMinute s.cfgWinStart.minute.toNat s.cfgFoxMax.toNat s.cfgTransmitMinute.toNat m

/-- `isOffMinute(m)` of R209 for the configured slot. -/
def State.Of.offMinute (s : State.Of p) (m : Nat) : Bool :=
  isOffMinute s.cfgWinStart.minute.toNat s.cfgFoxMax.toNat s.cfgTransmitMinute.toNat m

/-- `nextOnMinute(m)` of R210 for the configured slot. -/
def State.Of.nextOn (s : State.Of p) (m : Nat) : Nat :=
  nextOnMinute s.cfgWinStart.minute.toNat s.cfgFoxMax.toNat s.cfgTransmitMinute.toNat m

/-- `inWindow(now)` of R201 for the configured window. -/
def State.Of.windowHolds (s : State.Of p) (now : DateTime) : Bool := inWindow s.cfgWinStart s.cfgWinStop now

/-! ## Placing an instruction where the next step runs it -/

/-- The state whose next stimulus word is `w` (log 1). -/
def State.Of.present (w : StimWord) (s : State.Of p) : State.Of p := { s with stimulus := w :: s.stimulus }

/-- The state whose next step is the restart tick of a running Morse engine (R171) that fetches and executes the symbol
`sym` as `prog[0]` (log 18). -/
def State.Of.presentSymbol (sym : Symbol) (s : State.Of p) : State.Of p :=
  State.Of.present (encode (.tickMorse ⟨true, true⟩))
    { s with
      mode := .run
      morseRunning := true
      resetFlag := true
      cfgMorseEn := true
      cfgProgLen := if s.cfgProgLen = 0 then 1 else s.cfgProgLen
      prog := s.prog.setIfInBounds 0 sym }

end Sys2Proof.Machine
end

