-- ==== Sys2Proof/Machine/Arbiter.lean ====
section
/-! DEFINITION. The reader's two operations (spec/40_arbiter.md R104, R105). Both are accepted in both modes (R283). -/

namespace Sys2Proof.Machine

variable {p : Config.Params}

/-- READER_CLAIM (R104): unconditional. -/
def execReaderClaim (r : Resp) (s : State.Of p) : Host.Outcome (State.Of p) Fault Refusal :=
  .next { s.startOp r with claimedByReader := true }

/-- READER_RELEASE (R105): the claim is cleared first, so the drained action finds the bus free. -/
def execReaderRelease (r : Resp) (s : State.Of p) : Host.Outcome (State.Of p) Fault Refusal :=
  .next (State.Of.drainDeferred { s.startOp r with claimedByReader := false })

end Sys2Proof.Machine
end

