-- ==== Sys2Proof/Machine/Configuration.lean ====
section
/-! DEFINITION. The configuration writes (spec/45_config.md R241, R248 to R259): CONFIG mode only, each touches its own
register or ROM entry and nothing else. -/

namespace Sys2Proof.Machine

variable {p : Config.Params}

/-- The body of CFG_WPM (R248): the one write whose rejection does not keep the prior value (C2). -/
def setCfgWpm (value : BitVec 8) (s : State.Of p) : State.Of p :=
  if wpmInRange p value then { s with cfgWpm := value }
  else State.Of.raise .invalid { s with cfgWpm := BitVec.ofNat 8 p.wpmDefault }

/-- CFG_WPM (R248). -/
def execCfgWpm (r : Resp) (value : BitVec 8) (s : State.Of p) : Host.Outcome (State.Of p) Fault Refusal :=
  inConfig r s fun s => .next (setCfgWpm value s)

/-- CFG_MORSE_EN (R249). -/
def execCfgMorseEn (r : Resp) (en : Bool) (s : State.Of p) : Host.Outcome (State.Of p) Fault Refusal :=
  inConfig r s fun s => .next { s with cfgMorseEn := en }

/-- The body of CFG_PROG_LEN (R251). -/
def setProgLen (len : BitVec 16) (s : State.Of p) : State.Of p :=
  if !progLenInRange p len then s.raise .invalid else { s with cfgProgLen := len.setWidth 9 }

/-- CFG_PROG_LEN (R251). -/
def execCfgProgLen (r : Resp) (len : BitVec 16) (s : State.Of p) : Host.Outcome (State.Of p) Fault Refusal :=
  inConfig r s fun s => .next (setProgLen len s)

/-- The body of CFG_PROG_SYM (R252). -/
def setProgSym (index : BitVec 8) (sym : Symbol) (s : State.Of p) : State.Of p :=
  if p.progMax ≤ index.toNat then s.raise .invalid else { s with prog := s.prog.setIfInBounds index.toNat sym }

/-- CFG_PROG_SYM (R252). -/
def execCfgProgSym (r : Resp) (index : BitVec 8) (sym : Symbol) (s : State.Of p) :
    Host.Outcome (State.Of p) Fault Refusal :=
  inConfig r s fun s => .next (setProgSym index sym s)

/-- CFG_MOD_EN (R253). -/
def execCfgModEn (r : Resp) (en : Bool) (s : State.Of p) : Host.Outcome (State.Of p) Fault Refusal :=
  inConfig r s fun s => .next { s with cfgModEn := en }

/-- The body of CFG_MOD_TAB (R254). -/
def setModTab (index : BitVec 8) (word : Word) (s : State.Of p) : State.Of p :=
  if decide (p.modTableLen ≤ index.toNat) || decide (p.ampWordMax < word) then s.raise .invalid
  else { s with modTab := s.modTab.setIfInBounds index.toNat word }

/-- CFG_MOD_TAB (R254). -/
def execCfgModTab (r : Resp) (index : BitVec 8) (word : BitVec 32) (s : State.Of p) :
    Host.Outcome (State.Of p) Fault Refusal :=
  inConfig r s fun s => .next (setModTab index word s)

/-- The body of CFG_FREQ (R255). -/
def setCfgFreq (hz : Word) (s : State.Of p) : State.Of p :=
  if !freqInRange p hz then s.raise .invalid else { s with cfgFreq := hz }

/-- CFG_FREQ (R255). -/
def execCfgFreq (r : Resp) (hz : BitVec 32) (s : State.Of p) : Host.Outcome (State.Of p) Fault Refusal :=
  inConfig r s fun s => .next (setCfgFreq hz s)

/-- The body of CFG_AMP (R256). -/
def setCfgAmp (value : BitVec 8) (s : State.Of p) : State.Of p :=
  if !ampPctInRange p value then s.raise .invalid else { s with cfgAmpPct := value }

/-- CFG_AMP (R256). -/
def execCfgAmp (r : Resp) (value : BitVec 8) (s : State.Of p) : Host.Outcome (State.Of p) Fault Refusal :=
  inConfig r s fun s => .next (setCfgAmp value s)

/-- The body of CFG_SLOT (R257): the three registers are written together or not at all. -/
def setSlot (foxNumber foxMax transmitMinute : BitVec 4) (s : State.Of p) : State.Of p :=
  if !slotInRange p foxNumber foxMax transmitMinute then s.raise .invalid
  else { s with cfgFoxNumber := foxNumber, cfgFoxMax := foxMax, cfgTransmitMinute := transmitMinute }

/-- CFG_SLOT (R257). -/
def execCfgSlot (r : Resp) (foxNumber foxMax transmitMinute : BitVec 4) (s : State.Of p) :
    Host.Outcome (State.Of p) Fault Refusal :=
  inConfig r s fun s => .next (setSlot foxNumber foxMax transmitMinute s)

/-- The body of CFG_WIN_START (R258). -/
def setWinStart (dt : DateTime) (s : State.Of p) : State.Of p :=
  if !dt.legal p then s.raise .invalid else { s with cfgWinStart := dt }

/-- CFG_WIN_START (R258). -/
def execCfgWinStart (r : Resp) (dt : DateTime) (s : State.Of p) : Host.Outcome (State.Of p) Fault Refusal :=
  inConfig r s fun s => .next (setWinStart dt s)

/-- The body of CFG_WIN_STOP (R259): no check that it is later than the start. -/
def setWinStop (dt : DateTime) (s : State.Of p) : State.Of p :=
  if !dt.legal p then s.raise .invalid else { s with cfgWinStop := dt }

/-- CFG_WIN_STOP (R259). -/
def execCfgWinStop (r : Resp) (dt : DateTime) (s : State.Of p) : Host.Outcome (State.Of p) Fault Refusal :=
  inConfig r s fun s => .next (setWinStop dt s)

end Sys2Proof.Machine
end

