-- ==== Sys2Proof/Machine/Driver.lean ====
section
/-! DEFINITION. The host's operations on the synthesizer driver (spec/41_synth_driver.md R124 to R131). All act in RUN mode
only; the checks run in the order of R121: range, precondition, bus, transaction. -/

namespace Sys2Proof.Machine

variable {p : Config.Params}

/-- SYN_KEYON (R124). -/
def execSynKeyon (r : Resp) (s : State.Of p) : Host.Outcome (State.Of p) Fault Refusal :=
  inRun r s fun s => .next s.keyOn

/-- SYN_KEYOFF (R125). -/
def execSynKeyoff (r : Resp) (s : State.Of p) : Host.Outcome (State.Of p) Fault Refusal :=
  inRun r s fun s => .next s.keyOff

/-- The body of SYN_SETFREQ (R126). -/
def setFrequency (hz : Word) (s : State.Of p) : State.Of p :=
  if !freqInRange p hz then s.raise .invalid else s.gated (State.Of.synTxn .freq hz)

/-- SYN_SETFREQ (R126). -/
def execSynSetfreq (r : Resp) (hz : BitVec 32) (s : State.Of p) : Host.Outcome (State.Of p) Fault Refusal :=
  inRun r s fun s => .next (setFrequency hz s)

/-- The body of SYN_SETAMP (R127). -/
def setAmplitude (value : BitVec 8) (s : State.Of p) : State.Of p :=
  if !ampPctInRange p value then s.raise .invalid
  else s.gated (State.Of.synTxn .amp (p.ampWordOfPercent value.toNat))

/-- SYN_SETAMP (R127). -/
def execSynSetamp (r : Resp) (value : BitVec 8) (s : State.Of p) : Host.Outcome (State.Of p) Fault Refusal :=
  inRun r s fun s => .next (setAmplitude value s)

/-- The last three lines of SYN_PWRDOWN (R128): key off where keyed, then power down. -/
def powerDownNow (s : State.Of p) : State.Of p :=
  let s := if s.keyed then { s.synTxn .key keyValueOff with keyed := false } else s
  { s.synTxn .power powerDown with poweredDown := true }

/-- SYN_PWRDOWN (R128). -/
def execSynPwrdown (r : Resp) (s : State.Of p) : Host.Outcome (State.Of p) Fault Refusal :=
  inRun r s fun s => .next (if s.ccBand ≠ .none then s.raise .invalid else s.gated powerDownNow)

/-- SYN_PWRUP (R129). -/
def execSynPwrup (r : Resp) (s : State.Of p) : Host.Outcome (State.Of p) Fault Refusal :=
  inRun r s fun s => .next (s.gated fun s => { s.synTxn .power powerUp with poweredDown := false })

/-- The last four lines of CC_ENABLE (R130): key off, change the band, key on, stop the engine without a key-off. -/
def enableCarrierNow (band : CcBand) (s : State.Of p) : State.Of p :=
  let s := { s.synTxn .key keyValueOff with keyed := false }
  let s := { s with ccBand := band }
  let s := { s.synTxn .key keyValueOn with keyed := true }
  { s with morseRunning := false, resetFlag := false }

/-- CC_ENABLE (R130). -/
def execCcEnable (r : Resp) (band : BitVec 2) (s : State.Of p) : Host.Outcome (State.Of p) Fault Refusal :=
  inRun r s fun s => .next
    (match bandOfOperand band with
     | none => s.raise .invalid
     | some b => if s.poweredDown then s.raise .invalid else s.gated (enableCarrierNow b))

/-- The last three lines of CC_DISABLE (R131). -/
def disableCarrierNow (s : State.Of p) : State.Of p :=
  let s := { s.synTxn .key keyValueOff with keyed := false }
  State.Of.gateUpdate { s with ccBand := .none }

/-- CC_DISABLE (R131). -/
def execCcDisable (r : Resp) (s : State.Of p) : Host.Outcome (State.Of p) Fault Refusal :=
  inRun r s fun s => .next (if s.ccBand = .none then s else s.gated disableCarrierNow)

end Sys2Proof.Machine
end

