-- ==== Sys2Proof/Machine/Modulation.lean ====
section
/-! DEFINITION. The modulation envelope engine (spec/42_modulation.md R150 to R156). -/

namespace Sys2Proof.Machine

variable {p : Config.Params}

/-- The once-per-cycle write of R152: the index advances first and whatever becomes of the write; a denied or failed write
is skipped and not stored. -/
def modWrite (s : State.Of p) : Host.Outcome (State.Of p) Fault Refusal :=
  let s := { s with modIndex := wrapInc s.modIndex p.modTableLen }
  if !s.tryClaim then .next (s.raise .busy)
  else if !s.resp.synOk then .next (s.raise .commSyn)
  else
    match s.tabRead s.modIndex.toNat with
    | none => .fault .tabReadOutOfRange
    | some v => .next (s.synTxn .amp v)

/-- The body of TICK_MOD (R151, R152). -/
def tickModBody (s : State.Of p) : Host.Outcome (State.Of p) Fault Refusal :=
  if !(s.modulationEnabled && s.keyed) then .next { s with busAvailable := true }
  else
    let s := { s with busAvailable := decide (s.modPhase.toNat < p.modYield) }
    andThen (if s.modPhase.toNat = p.modCycle - 1 then modWrite s else .next s)
      fun s => { s with modPhase := wrapInc s.modPhase p.modCycle }

/-- TICK_MOD (R152). -/
def execTickMod (r : Resp) (s : State.Of p) : Host.Outcome (State.Of p) Fault Refusal :=
  inRun r s tickModBody

end Sys2Proof.Machine
end

