-- ==== Sys2Proof/Machine/Morse.lean ====
section
/-! DEFINITION. The Morse timing engine: the four symbols and TICK_MORSE (spec/43_morse.md R165 to R185). -/

namespace Sys2Proof.Machine

variable {p : Config.Params}

/-! ## The symbols, at load (R166, R175 to R178) -/

/-- DOT at load (R175). -/
def loadDot (s : State.Of p) : State.Of p :=
  State.Of.keyOn { s with unitsRemaining := BitVec.ofNat 4 p.unitsDot, curIsMark := true }

/-- DASH at load (R176). -/
def loadDash (s : State.Of p) : State.Of p :=
  State.Of.keyOn { s with unitsRemaining := BitVec.ofNat 4 p.unitsDash, curIsMark := true }

/-- LSP at load (R177): no key primitive. -/
def loadLsp (s : State.Of p) : State.Of p :=
  { s with unitsRemaining := BitVec.ofNat 4 (p.unitsLsp - 1), curIsMark := false }

/-- WSP at load (R178): no key primitive. -/
def loadWsp (s : State.Of p) : State.Of p :=
  { s with unitsRemaining := BitVec.ofNat 4 (p.unitsWsp - 1), curIsMark := false }

/-- DOT (R175): its action at load, inside the operation in progress (log 4). -/
def execDot (s : State.Of p) : Host.Outcome (State.Of p) Fault Refusal := .next (loadDot s)

/-- DASH (R176). -/
def execDash (s : State.Of p) : Host.Outcome (State.Of p) Fault Refusal := .next (loadDash s)

/-- LSP (R177). -/
def execLsp (s : State.Of p) : Host.Outcome (State.Of p) Fault Refusal := .next (loadLsp s)

/-- WSP (R178). -/
def execWsp (s : State.Of p) : Host.Outcome (State.Of p) Fault Refusal := .next (loadWsp s)

/-- "execute symbol s" of R172. -/
def loadSymbol (sym : Symbol) (s : State.Of p) : State.Of p :=
  match sym with
  | .dot => loadDot s
  | .dash => loadDash s
  | .lsp => loadLsp s
  | .wsp => loadWsp s

/-! ## The tick -/

/-- The fetch-and-load half of `UnitStep` (R172, R173). -/
def fetchSymbol (s : State.Of p) : Host.Outcome (State.Of p) Fault Refusal :=
  match s.progRead s.symbolIndex.toNat with
  | none => .fault .progReadOutOfRange
  | some sym => .next (loadSymbol sym { s with symbolIndex := wrapInc s.symbolIndex s.cfgProgLen.toNat })

/-- The count-down half of `UnitStep`, with the key-off of a mark's trailing unit (R172, R174). -/
def countDown (s : State.Of p) : State.Of p :=
  let s := { s with unitsRemaining := s.unitsRemaining - 1 }
  if s.unitsRemaining = 0 ∧ s.curIsMark = true then State.Of.keyOff { s with curIsMark := false } else s

/-- `UnitStep()` of R172. -/
def unitStep (s : State.Of p) : Host.Outcome (State.Of p) Fault Refusal :=
  if s.unitsRemaining = 0 then fetchSymbol s else .next (countDown s)

/-- The restart of R171: zero the cursor, the rate counter and `curIsMark`, and clear `resetFlag`. -/
def restartCursor (s : State.Of p) : State.Of p :=
  { s with symbolIndex := 0, unitsRemaining := 0, rateCount := 0, curIsMark := false, resetFlag := false }

/-- The rate counter's advance of R170. -/
def advanceRate (s : State.Of p) : State.Of p := { s with rateCount := wrapInc s.rateCount s.morseUnit.toNat }

/-- The body of TICK_MORSE (R170, R171, R179). -/
def tickMorseBody (s : State.Of p) : Host.Outcome (State.Of p) Fault Refusal :=
  if !s.morseRunning then .next s
  else
    let s := if s.resetFlag then restartCursor s else s
    if !s.cfgMorseEn then .next (if !s.keyed then s.keyOn else s)
    else andThen (if s.rateCount = 0 then unitStep s else .next s) advanceRate

/-- TICK_MORSE (R170). -/
def execTickMorse (r : Resp) (s : State.Of p) : Host.Outcome (State.Of p) Fault Refusal :=
  inRun r s tickMorseBody

end Sys2Proof.Machine
end

