-- ==== Sys2Proof/Machine/Reload.lean ====
section
/-! DEFINITION. The reload bracket and NOP (spec/45_config.md R240 to R245, R260, R261). -/

namespace Sys2Proof.Machine

variable {p : Config.Params}

/-- NOP (R260). -/
def execNop (r : Resp) (s : State.Of p) : Host.Outcome (State.Of p) Fault Refusal := .next (s.startOp r)

/-- RELOAD_BEGIN (R244): accepted in both modes. -/
def execReloadBegin (r : Resp) (s : State.Of p) : Host.Outcome (State.Of p) Fault Refusal :=
  .next { s.startOp r with mode := .config }

/-- The synthesizer group of R245. -/
def reloadSynth (s : State.Of p) : State.Of p :=
  let s := { s.synTxn .power powerUp with poweredDown := false }
  let s := s.synTxn .freq s.cfgFreq
  let s := s.synTxn .amp (p.ampWordOfPercent s.cfgAmpPct.toNat)
  let s := { s.synTxn .key keyValueOff with keyed := false }
  { s with
    ccBand := .none
    modulationEnabled := s.cfgModEn
    modPhase := 0
    modIndex := 0
    busAvailable := true }

/-- The Morse group of R245, with the unit of the configured rate. -/
def reloadMorse (unit : Nat) (s : State.Of p) : State.Of p :=
  { s with
    morseUnit := BitVec.ofNat 8 unit
    symbolIndex := 0
    unitsRemaining := 0
    rateCount := 0
    curIsMark := false
    resetFlag := false
    morseRunning := false }

/-- The scheduler group of R245 and the return to RUN mode. -/
def reloadScheduler (s : State.Of p) : State.Of p :=
  { s with winState := .notSet, withinSlot := false, winAlarmRetry := false, mode := .run }

/-- The body of RELOAD_END (R245). `convertToUnit(0)` has no value (U3; log 11). -/
def reloadEndBody (s : State.Of p) : Host.Outcome (State.Of p) Fault Refusal :=
  if !s.tryClaim then .next (s.raise .busy)
  else if !s.resp.synOk then .next (s.raise .commSyn)
  else
    match convertToUnit p s.cfgWpm.toNat with
    | none => .refused .unitOfZeroWpm
    | some unit => .next (reloadScheduler (reloadMorse unit (reloadSynth s)))

/-- RELOAD_END (R245). -/
def execReloadEnd (r : Resp) (s : State.Of p) : Host.Outcome (State.Of p) Fault Refusal :=
  inConfig r s reloadEndBody

end Sys2Proof.Machine
end

