-- ==== Sys2Proof/Machine/Scheduler.lean ====
section
/-! DEFINITION. The transmission window scheduler (spec/44_scheduler.md R200 to R223). -/

namespace Sys2Proof.Machine

variable {p : Config.Params}

/-- The transition into `InWindow` (R202, R205), before the retry bit. -/
def enterWindow (s : State.Of p) : State.Of p :=
  let s := s.rtcArm1 s.cfgWinStop
  let s := State.Of.gateUpdate { s with winState := .inWindow }
  s.notify .windowEntered

/-- The transition into `OutOfWindow` (R202, R205), before the retry bit. -/
def leaveWindow (s : State.Of p) : State.Of p :=
  let s := State.Of.gateUpdate { s with winState := .outOfWindow }
  let s := s.rtcArm1 s.cfgWinStart
  s.notify .windowLeft

/-- `winAlarmRetry <- !rtcOk` (R205, R207). -/
def noteRetry (s : State.Of p) : State.Of p := { s with winAlarmRetry := !s.resp.rtcOk }

/-- The body of EVAL_WINDOW (R205, R207). -/
def evalWindowBody (now : DateTime) (s : State.Of p) : State.Of p :=
  if !now.legal p then s.raise .invalid
  else
    let new : WinState := if s.windowHolds now then .inWindow else .outOfWindow
    if new ≠ s.winState then noteRetry (if new = .inWindow then enterWindow s else leaveWindow s)
    else if s.winAlarmRetry then
      noteRetry (s.rtcArm1 (if s.winState = .inWindow then s.cfgWinStop else s.cfgWinStart))
    else s

/-- EVAL_WINDOW (R205). -/
def execEvalWindow (r : Resp) (now : DateTime) (s : State.Of p) : Host.Outcome (State.Of p) Fault Refusal :=
  inRun r s fun s => .next (evalWindowBody now s)

/-- The on-minute branch of R215. -/
def slotOnBranch (m : Nat) (s : State.Of p) : State.Of p :=
  let edge := !s.withinSlot
  let s := if edge then State.Of.gateUpdate { s with withinSlot := true } else s
  let s := s.rtcArm2 (minuteAfter m)
  if edge then s.notify .slotOn else s

/-- The off-minute branch of R215. -/
def slotOffBranch (m : Nat) (s : State.Of p) : State.Of p :=
  let edge := s.withinSlot
  let s := if edge then State.Of.gateUpdate { s with withinSlot := false } else s
  let s := s.rtcArm2 (s.nextOn m)
  if edge then s.notify .slotOff else s

/-- The misaligned branch of R215 and R216. -/
def slotMisaligned (m : Nat) (s : State.Of p) : State.Of p :=
  let s := s.raise .misaligned
  s.rtcArm2 (if s.withinSlot then minuteAfter m else s.nextOn m)

/-- The body of EVAL_SLOT (R215). With `cfgFoxMax` 0 the remainders of R208 have no value (R12; log 12). -/
def evalSlotBody (minute : BitVec 6) (s : State.Of p) : Host.Outcome (State.Of p) Fault Refusal :=
  if 59 < minute.toNat then .next (s.raise .invalid)
  else if s.cfgFoxMax = 0 then .refused .slotModuloZero
  else .next
    (if s.onMinute minute.toNat then slotOnBranch minute.toNat s
     else if s.offMinute minute.toNat then slotOffBranch minute.toNat s
     else slotMisaligned minute.toNat s)

/-- EVAL_SLOT (R215). -/
def execEvalSlot (r : Resp) (minute : BitVec 6) (s : State.Of p) : Host.Outcome (State.Of p) Fault Refusal :=
  inRun r s (evalSlotBody minute)

end Sys2Proof.Machine
end

