-- ==== Sys2Proof/Machine/Dispatch.lean ====
section
/-! DEFINITION. One arm per instruction of spec/opcode_table.json, each one direct call of its meaning. -/

namespace Sys2Proof.Machine

def exec (i : Instr) (s : State) : Host.Outcome State Fault Refusal :=
  match i with
  | .nop r => Sys2Proof.Machine.execNop r s
  | .tickMorse r => Sys2Proof.Machine.execTickMorse r s
  | .tickMod r => Sys2Proof.Machine.execTickMod r s
  | .evalWindow r now => Sys2Proof.Machine.execEvalWindow r now s
  | .evalSlot r minute => Sys2Proof.Machine.execEvalSlot r minute s
  | .readerClaim r => Sys2Proof.Machine.execReaderClaim r s
  | .readerRelease r => Sys2Proof.Machine.execReaderRelease r s
  | .synSetfreq r hz => Sys2Proof.Machine.execSynSetfreq r hz s
  | .synSetamp r value => Sys2Proof.Machine.execSynSetamp r value s
  | .synKeyon r => Sys2Proof.Machine.execSynKeyon r s
  | .synKeyoff r => Sys2Proof.Machine.execSynKeyoff r s
  | .synPwrdown r => Sys2Proof.Machine.execSynPwrdown r s
  | .synPwrup r => Sys2Proof.Machine.execSynPwrup r s
  | .ccEnable r band => Sys2Proof.Machine.execCcEnable r band s
  | .ccDisable r => Sys2Proof.Machine.execCcDisable r s
  | .reloadBegin r => Sys2Proof.Machine.execReloadBegin r s
  | .reloadEnd r => Sys2Proof.Machine.execReloadEnd r s
  | .cfgWpm r value => Sys2Proof.Machine.execCfgWpm r value s
  | .cfgMorseEn r en => Sys2Proof.Machine.execCfgMorseEn r en s
  | .cfgProgLen r len => Sys2Proof.Machine.execCfgProgLen r len s
  | .cfgProgSym r index sym => Sys2Proof.Machine.execCfgProgSym r index sym s
  | .cfgModEn r en => Sys2Proof.Machine.execCfgModEn r en s
  | .cfgModTab r index word => Sys2Proof.Machine.execCfgModTab r index word s
  | .cfgFreq r hz => Sys2Proof.Machine.execCfgFreq r hz s
  | .cfgAmp r value => Sys2Proof.Machine.execCfgAmp r value s
  | .cfgSlot r foxNumber foxMax transmitMinute => Sys2Proof.Machine.execCfgSlot r foxNumber foxMax transmitMinute s
  | .cfgWinStart r dt => Sys2Proof.Machine.execCfgWinStart r dt s
  | .cfgWinStop r dt => Sys2Proof.Machine.execCfgWinStop r dt s
  | .dot => Sys2Proof.Machine.execDot s
  | .dash => Sys2Proof.Machine.execDash s
  | .lsp => Sys2Proof.Machine.execLsp s
  | .wsp => Sys2Proof.Machine.execWsp s

end Sys2Proof.Machine
end

