-- ==== Sys2Proof/Machine/Step.lean ====
section
/-! DEFINITION. One step of CORE: one atomic operation per stimulus word (spec/00_scope.md R11). -/

namespace Sys2Proof.Machine

/-- `step` of R11, over a dispatcher of the operations. CORE executes nothing on its own: with no word to take it waits,
unchanged (R302; log 1). A word that selects no operation is illegal and has only the effect of R85. -/
def stepBy {p : Config.Params} (run : Instr → State.Of p → Host.Outcome (State.Of p) Fault Refusal) (s : State.Of p) :
    Host.Outcome (State.Of p) Fault Refusal :=
  match s.fetch with
  | none => .next s
  | some (w, s') =>
    match decode w with
    | .ok i => run i s'
    | .error _ => .next (illegalWord s')

/-- `step` of R11 for this machine. -/
def step (s : State) : Host.Outcome State Fault Refusal := stepBy exec s

/-- `s` with an instruction of the opcode table placed where the next step runs it: a stimulus word at the head of the
words to come, a symbol as the program entry the next tick fetches (log 1, log 18). -/
def State.Of.withFetchWord {p : Config.Params} (s : State.Of p) (nbits w : Nat) : State.Of p :=
  if nbits ≤ 8 then s.presentSymbol (symbolOfCode (BitVec.ofNat 2 w)) else s.present (BitVec.ofNat 64 w)

/-- `State.Of.withFetchWord` for this machine. -/
def State.withFetchWord (s : State) (nbits w : Nat) : State := State.Of.withFetchWord s nbits w

end Sys2Proof.Machine
end

