-- ==== Sys2Proof/Machine/Parametric.lean ====
section
/-! DEFINITION. The same machine for any configuration record of spec/00_scope.md R9, with the record an argument
(spec/93_implementation_defined.md U9): `State.Of`, `State.Of.reset`, `execOf`, `stepOf`. `State`, `State.reset`, `exec` and
`step` are these at the record `Config.params`. -/

namespace Sys2Proof.Machine

/-- `exec` of the machine with the parameters `p`: the same meaning for every instruction. -/
def execOf (p : Config.Params) (i : Instr) (s : State.Of p) : Host.Outcome (State.Of p) Fault Refusal :=
  match i with
  | .nop r => execNop r s
  | .tickMorse r => execTickMorse r s
  | .tickMod r => execTickMod r s
  | .evalWindow r now => execEvalWindow r now s
  | .evalSlot r minute => execEvalSlot r minute s
  | .readerClaim r => execReaderClaim r s
  | .readerRelease r => execReaderRelease r s
  | .synSetfreq r hz => execSynSetfreq r hz s
  | .synSetamp r value => execSynSetamp r value s
  | .synKeyon r => execSynKeyon r s
  | .synKeyoff r => execSynKeyoff r s
  | .synPwrdown r => execSynPwrdown r s
  | .synPwrup r => execSynPwrup r s
  | .ccEnable r band => execCcEnable r band s
  | .ccDisable r => execCcDisable r s
  | .reloadBegin r => execReloadBegin r s
  | .reloadEnd r => execReloadEnd r s
  | .cfgWpm r value => execCfgWpm r value s
  | .cfgMorseEn r en => execCfgMorseEn r en s
  | .cfgProgLen r len => execCfgProgLen r len s
  | .cfgProgSym r index sym => execCfgProgSym r index sym s
  | .cfgModEn r en => execCfgModEn r en s
  | .cfgModTab r index word => execCfgModTab r index word s
  | .cfgFreq r hz => execCfgFreq r hz s
  | .cfgAmp r value => execCfgAmp r value s
  | .cfgSlot r foxNumber foxMax transmitMinute => execCfgSlot r foxNumber foxMax transmitMinute s
  | .cfgWinStart r dt => execCfgWinStart r dt s
  | .cfgWinStop r dt => execCfgWinStop r dt s
  | .dot => execDot s
  | .dash => execDash s
  | .lsp => execLsp s
  | .wsp => execWsp s

/-- `step` of the machine with the parameters `p` (R11). -/
def stepOf (p : Config.Params) (s : State.Of p) : Host.Outcome (State.Of p) Fault Refusal := stepBy (execOf p) s

end Sys2Proof.Machine
end

