-- ==== Sys2Proof/Safety.lean ====
section
/-! DEFINITION. The terms claims about CORE use: the views and invariants the spec states (spec/10_state.md R43, R47), which
modes accept an operation (spec/60_exceptions.md R283), what the output records mean to the chips (spec/20_memory.md R71),
and runs of several operations. -/

namespace Sys2Proof.Machine

variable {p : Config.Params}

/-! ## Views of a state -/

/-- "The carrier is on the air exactly when" (R43). -/
def State.Of.carrierOn (s : State.Of p) : Prop := s.synAct.get .key = keyValueOn ∧ s.synAct.get .power = powerUp

/-- `withinWindow` of R37: a view, not a register. -/
def State.Of.withinWindow (s : State.Of p) : Bool := decide (s.winState = .inWindow)

/-- `s` with nothing changed but the response bits taken, the result flags and the output records: what an operation leaves
that changes no state of CORE. -/
def State.Of.answered (s : State.Of p) (r : Resp) (fl : BitVec 8) (o : List OutRecord) : State.Of p :=
  { s with resp := r, flags := fl, out := o }

/-- `s` after the synthesizer image took the value `v` in register `r` through a write and its commit (R64). -/
def State.Of.synHolds (s : State.Of p) (r : SynReg) (v : Word) : State.Of p :=
  { s with synBuf := s.synBuf.set r v, synAct := s.synBuf.set r v }

/-- The two records of one synthesizer transaction (R64). -/
def synRecords (r : SynReg) (v : Word) : List OutRecord := [.synW r v, .synApply]

/-! ## Which mode accepts an operation (R283) -/

/-- Acceptance of R283. A symbol is not presented to CORE; it runs inside TICK_MORSE. -/
def accepts : Mode → Instr → Bool
  | _, .nop _ | _, .readerClaim _ | _, .readerRelease _ | _, .reloadBegin _ => true
  | .config, .reloadEnd _ | .config, .cfgWpm _ _ | .config, .cfgMorseEn _ _ | .config, .cfgProgLen _ _ => true
  | .config, .cfgProgSym _ _ _ | .config, .cfgModEn _ _ | .config, .cfgModTab _ _ _ | .config, .cfgFreq _ _ => true
  | .config, .cfgAmp _ _ | .config, .cfgSlot _ _ _ _ | .config, .cfgWinStart _ _ | .config, .cfgWinStop _ _ => true
  | .run, .tickMorse _ | .run, .tickMod _ | .run, .evalWindow _ _ | .run, .evalSlot _ _ => true
  | .run, .synSetfreq _ _ | .run, .synSetamp _ _ | .run, .synKeyon _ | .run, .synKeyoff _ => true
  | .run, .synPwrdown _ | .run, .synPwrup _ | .run, .ccEnable _ _ | .run, .ccDisable _ => true
  | .run, .dot | .run, .dash | .run, .lsp | .run, .wsp => true
  | .run, .reloadEnd _ | .run, .cfgWpm _ _ | .run, .cfgMorseEn _ _ | .run, .cfgProgLen _ _ => false
  | .run, .cfgProgSym _ _ _ | .run, .cfgModEn _ _ | .run, .cfgModTab _ _ _ | .run, .cfgFreq _ _ => false
  | .run, .cfgAmp _ _ | .run, .cfgSlot _ _ _ _ | .run, .cfgWinStart _ _ | .run, .cfgWinStop _ _ => false
  | .config, .tickMorse _ | .config, .tickMod _ | .config, .evalWindow _ _ | .config, .evalSlot _ _ => false
  | .config, .synSetfreq _ _ | .config, .synSetamp _ _ | .config, .synKeyon _ | .config, .synKeyoff _ => false
  | .config, .synPwrdown _ | .config, .synPwrup _ | .config, .ccEnable _ _ | .config, .ccDisable _ => false
  | .config, .dot | .config, .dash | .config, .lsp | .config, .wsp => false

/-! ## Invariants (R47) -/

/-- Every configuration register and ROM entry holds a legal value (R41, R42, R47 (i)). A symbol of the program is legal by
its type (R88). -/
structure State.Of.ConfigLegal (s : State.Of p) : Prop where
  wpm : wpmInRange p s.cfgWpm = true
  progLen : 1 ≤ s.cfgProgLen.toNat ∧ s.cfgProgLen.toNat ≤ p.progMax
  freq : freqInRange p s.cfgFreq = true
  ampPct : ampPctInRange p s.cfgAmpPct = true
  slot : slotInRange p s.cfgFoxNumber s.cfgFoxMax s.cfgTransmitMinute = true
  winStart : s.cfgWinStart.legal p = true
  winStop : s.cfgWinStop.legal p = true
  modTab : ∀ (i : Nat) (v : Word), s.modTab[i]? = some v → v ≤ p.ampWordMax

/-- The chip image agrees with CORE's own belief (R47 (g)). -/
structure State.Of.ImageAgrees (s : State.Of p) : Prop where
  committed : s.synAct = s.synBuf
  key : s.keyed = true ↔ s.synAct.get .key = keyValueOn
  power : s.poweredDown = true ↔ s.synAct.get .power = powerDown

/-- The invariants of R47 and the ranges of R22 and R25. (g) is stated for RUN mode: RUN mode is entered only by a
successful RELOAD_END, so it implies the "after the first successful RELOAD_END" of R47 (g). -/
structure State.Of.Inv (s : State.Of p) : Prop where
  /-- R47 (a). -/
  deferred_claimed : s.deferred ≠ .none → s.claimedByReader = true
  /-- R47 (b). -/
  down_unkeyed : s.poweredDown = true → s.keyed = false
  /-- R47 (c), R21. -/
  index_in_program : s.mode = .run → s.symbolIndex.toNat < s.cfgProgLen.toNat
  /-- R47 (d), R24. -/
  rate_below_unit : s.rateCount.toNat < s.morseUnit.toNat
  /-- R47 (e), R28. -/
  phase_in_cycle : s.modPhase.toNat < p.modCycle
  /-- R47 (e), R29. -/
  mod_index_in_table : s.modIndex.toNat < p.modTableLen
  /-- R47 (f). -/
  running_gated : s.mode = .run → s.morseRunning = true → s.ccBand = .none ∧ s.winState = .inWindow
  /-- R27: in RUN mode `morseRunning` is the registered copy of the gate. -/
  running_is_gate : s.mode = .run → s.morseRunning = s.gate
  /-- R47 (g), in RUN mode. -/
  image_agrees : s.mode = .run → s.ImageAgrees
  /-- R47 (h). -/
  reset_running : s.resetFlag = true → s.morseRunning = true
  /-- R47 (i). -/
  config_legal : s.ConfigLegal
  /-- R22, which leaves `UNITS_DOT` out of the maximum: with the source's numbers it is no larger than `UNITS_DASH`. -/
  units_range : s.unitsRemaining.toNat ≤
    max (max p.unitsDot p.unitsDash) (max (p.unitsLsp - 1) (p.unitsWsp - 1))
  /-- R25. -/
  unit_range : p.wpmConst / p.wpmMax ≤ s.morseUnit.toNat ∧ s.morseUnit.toNat ≤ p.wpmConst / p.wpmMin

/-! ## The meaning of the output records to the chips (R64, R66, R71) -/

/-- The images of the two chips (R43, R44). -/
structure ChipImages where
  synBuf : SynImage
  synAct : SynImage
  rtcAlarm1 : DateTime
  rtcAlarm2 : BitVec 6
deriving DecidableEq, Repr

/-- The chip images of a state. -/
def State.Of.chips (s : State.Of p) : ChipImages := ⟨s.synBuf, s.synAct, s.rtcAlarm1, s.rtcAlarm2⟩

/-- What one record of `out` did to the chips: a write reaches the buffer, the commit copies the buffer, an alarm record is
the alarm's new target, a notification does nothing (R64, R66, R92). -/
def ChipImages.record (c : ChipImages) : OutRecord → ChipImages
  | .synW r v => { c with synBuf := c.synBuf.set r v }
  | .synApply => { c with synAct := c.synBuf }
  | .rtcA1 dt => { c with rtcAlarm1 := dt }
  | .rtcA2 m => { c with rtcAlarm2 := m }
  | .note _ => c

/-- The chips after a list of records, in order (R71). -/
def ChipImages.replay (c : ChipImages) (o : List OutRecord) : ChipImages := o.foldl ChipImages.record c

/-- A record whose value is in the range of its target (R63, R286). -/
def OutRecord.legal (p : Config.Params) : OutRecord → Prop
  | .synW .key v => v = keyValueOff ∨ v = keyValueOn
  | .synW .amp v => v ≤ p.ampWordMax
  | .synW .freq v => p.freqMin ≤ v ∧ v ≤ p.freqMax
  | .synW .power v => v = powerUp ∨ v = powerDown
  | .synApply => True
  | .rtcA1 dt => dt.legal p = true
  | .rtcA2 m => m.toNat ≤ 59
  | .note _ => True

/-- A record that drives the shared bus (R74). -/
def OutRecord.drivesBus : OutRecord → Bool
  | .synW _ _ | .synApply => true
  | .rtcA1 _ | .rtcA2 _ | .note _ => false

/-! ## Runs -/

/-- Operations one after the other, each from the state the one before left (R71), stopping at the first that does not
answer a next state. -/
def runOps : List Instr → State → Host.Outcome State Fault Refusal
  | [], s => .next s
  | i :: rest, s =>
    match exec i s with
    | .next s' => runOps rest s'
    | .fault e => .fault e
    | .refused e => .refused e

/-- `n` times the operation `i`. -/
def runTimes (n : Nat) (i : Instr) (s : State) : Host.Outcome State Fault Refusal := runOps (List.replicate n i) s

/-- The host's key request and the action it asks for (R106, R124, R125). -/
def keyRequest (on : Bool) (r : Resp) : Instr := if on then .synKeyon r else .synKeyoff r

/-- The deferred action of a key request (R102). -/
def requestedAction (on : Bool) : Deferred := if on then .turnOn else .turnOff

/-- The working state of CORE without the model's own ports: two states that agree here are the same `S` of R20. -/
def State.Of.coreState (s : State.Of p) : State.Of p := { s with stimulus := [], resp := ⟨true, true⟩, flags := 0, out := [] }

/-- The operations that can change `keyed`: those that reach `keyOn` or `keyOff` (R122, R123) and the four that write it
themselves (R31, R133). -/
def mayKey : Instr → Bool
  | .synKeyon _ | .synKeyoff _ | .tickMorse _ | .readerRelease _ | .evalWindow _ _ | .evalSlot _ _ => true
  | .synPwrdown _ | .ccEnable _ _ | .ccDisable _ | .reloadEnd _ => true
  | .nop _ | .tickMod _ | .readerClaim _ | .synSetfreq _ _ | .synSetamp _ _ | .synPwrup _ | .reloadBegin _ => false
  | .cfgWpm _ _ | .cfgMorseEn _ _ | .cfgProgLen _ _ | .cfgProgSym _ _ _ | .cfgModEn _ _ | .cfgModTab _ _ _ => false
  | .cfgFreq _ _ | .cfgAmp _ _ | .cfgSlot _ _ _ _ | .cfgWinStart _ _ | .cfgWinStop _ _ => false
  | .dot | .dash => true
  | .lsp | .wsp => false

/-! ## The timeline of a program (R166, R182) -/

/-- Keyed unit steps of a symbol (R166). -/
def keyedUnits (p : Config.Params) : Symbol → Nat
  | .dot => p.unitsDot
  | .dash => p.unitsDash
  | .lsp => 0
  | .wsp => 0

/-- Total unit steps `D(s)` of a symbol (R166). -/
def totalUnits (p : Config.Params) : Symbol → Nat
  | .dot => p.unitsDot + p.unitsTrail
  | .dash => p.unitsDash + p.unitsTrail
  | .lsp => p.unitsLsp
  | .wsp => p.unitsWsp

/-- Symbol number `k` of a run, `p[k mod n]` (R182). -/
def State.Of.symbolNumber (s : State.Of p) (k : Nat) : Symbol := (s.prog[k % s.cfgProgLen.toNat]?).getD .dot

/-- `U(k)` of R182: the unit step at which symbol number `k` is fetched. -/
def State.Of.fetchUnit (s : State.Of p) : Nat → Nat
  | 0 => 0
  | k + 1 => s.fetchUnit k + totalUnits p (s.symbolNumber k)

end Sys2Proof.Machine
end

