-- ==== Sys2Proof/Certificates/Slice0/Obligations.lean ====
section
/-! DEFINITION. The statements for the provers. `s.answered r f o` is `s` with nothing changed but the response bits taken,
the result flags `f` and the output records `o`, so a conclusion `exec i s = .next { s.answered r f o with … }` names
every field that changes and says that every other one does not. -/

open Sys2Proof Sys2Proof.Machine

/-! ## Encoding and the step -/

/-- Decode and encode agree (R80, R81, R82, R84, R88): every operation is read back from its stimulus word with its operands
and response bits, every symbol from its ROM entry. -/
def Obligations.DecodeOfEncodeIsTheInstruction : Prop :=
  (∀ i : Instr, i.isOperation = true → decode (encode i) = .ok i) ∧
  (∀ i : Instr, i.isSymbol = true → decodeSymbol (encodeSymbol i) = i)

/-- No two words are the same instruction and every bit of a legal word is an operand, a response bit or the opcode (R80,
R84, R85). -/
def Obligations.EncodeOfDecodeIsTheWord : Prop :=
  ∀ (w : StimWord) (i : Instr), decode w = .ok i → i.isOperation = true ∧ encode i = w

/-- R83: a word selects the operation of a row exactly where it matches under the row's mask, and no word matches two
rows. -/
def Obligations.DecodeSelectsByMaskAndMatch : Prop :=
  (∀ (w : StimWord), ∀ row ∈ opcodeRows,
    w &&& row.mask = row.pattern ↔ ∃ i, decode w = .ok i ∧ row.pattern = i.opcode ++ (0 : BitVec 56)) ∧
  (∀ (w : StimWord) (i : Instr), decode w = .ok i → ∃ row ∈ opcodeRows, row.pattern = i.opcode ++ (0 : BitVec 56)) ∧
  opcodeRows.Pairwise (fun a b => ∀ w : StimWord, w &&& a.mask = a.pattern → w &&& b.mask ≠ b.pattern)

/-- A few words of the spec decode to the operations they stand for (the words of 95_test_vectors.md section 9 and V7.2). -/
def Obligations.SpecWordsDecode : Prop :=
  decode 0x0000000000000000 = .ok (.nop ⟨false, false⟩) ∧
  decode 0x01C0000000000000 = .ok (.tickMorse ⟨true, true⟩) ∧
  decode 0x0240000000000000 = .ok (.tickMod ⟨false, true⟩) ∧
  decode 0x0380000E6582A000 = .ok (.evalWindow ⟨true, false⟩ ⟨0, 0, 10, 1, 6, 25, 7⟩) ∧
  decode 0x09C0000000000000 = .ok (.readerRelease ⟨true, true⟩) ∧
  decode 0x10C0000000369C78 = .ok (.synSetfreq ⟨true, true⟩ 3579000) ∧
  decode 0x25C0000000000310 = .ok (.cfgProgSym ⟨true, true⟩ 16 .wsp) ∧
  decode 0x2AC0000000000253 = .ok (.cfgSlot ⟨true, true⟩ 3 5 2) ∧
  decode 0x2CC0000E6582C78F = .ok (.cfgWinStop ⟨true, true⟩ ⟨15, 30, 12, 1, 6, 25, 7⟩) ∧
  decode 0x01C0000000000001 = .error (.reservedBits 0x01) ∧
  decode 0x05C0000000000000 = .error (.unassignedOpcode 0x05)

/-- The byte form of a word is big-endian, byte `k` being `w[63-8k:56-8k]` and byte 0 the opcode, and decodes as the word
does, with the bytes after it left over (R67; log 17). -/
def Obligations.BytesAreBigEndian : Prop :=
  ∀ (w : StimWord) (rest : List Byte),
    (wordBytes w).head? = some (opcodeOf w) ∧ (wordBytes w).length = 8 ∧
    (∀ k : Nat, k < 8 → (wordBytes w)[k]? = some (w.extractLsb' (56 - 8 * k) 8)) ∧
    (∀ i, decode w = .ok i → decodeBytes (wordBytes w ++ rest) = .ok (i, rest)) ∧
    (∀ e, decode w = .error e → decodeBytes (wordBytes w ++ rest) = .error e)

/-- A step runs the decoded operation: the word presented is taken and the step is exec of what it decodes to (R11, R80).
That the word is the head of the list `stimulus`, and that the waiting words stay as they are, is the model's choice
(DESIGN CHOICE, log 1). -/
def Obligations.StepRunsTheDecodedOperation : Prop :=
  ∀ (s : State) (w : StimWord) (rest : List StimWord) (i : Instr),
    s.stimulus = w :: rest → decode w = .ok i →
    step s = exec i { s with stimulus := rest } ∧
    ∀ t, step s = .next t → t.stimulus = rest

/-- A tick that fetches runs the symbol it fetches (R172): exec of TICK_MORSE is exec of the symbol `prog[symbolIndex]` on
the state whose `symbolIndex` has moved on, and then the rate counter's advance. -/
def Obligations.FetchTickRunsTheSymbol : Prop :=
  ∀ (r : Resp) (s : State) (sym : Symbol),
    s.mode = .run → s.morseRunning = true → s.resetFlag = false → s.cfgMorseEn = true → s.rateCount = 0 →
    s.unitsRemaining = 0 → s.symbolIndex.toNat < s.cfgProgLen.toNat →
    s.prog[s.symbolIndex.toNat]? = some sym →
    ∃ u, exec sym.instr { s.answered r 0 [] with
        symbolIndex := if s.symbolIndex.toNat + 1 = s.cfgProgLen.toNat then 0 else s.symbolIndex + 1 } = .next u ∧
      exec (.tickMorse r) s =
        .next { u with rateCount := if 1 = s.morseUnit.toNat then 0 else 1 }

/-- R85: a word that selects no operation sets ILLEGAL, changes no state and emits nothing. -/
def Obligations.IllegalWordOnlySetsIllegal : Prop :=
  ∀ (s : State) (w : StimWord) (rest : List StimWord),
    s.stimulus = w :: rest → (∀ row ∈ opcodeRows, w &&& row.mask ≠ row.pattern) →
    step s = .next { s with stimulus := rest, flags := Flag.illegal.mask, out := [] }

/-- With no stimulus word CORE executes nothing (R302): it waits, unchanged. That the wait is a step of its own is the
model's choice (log 1). -/
def Obligations.NoStimulusNoStep : Prop :=
  ∀ s : State, s.stimulus = [] → step s = .next s

/-! ## Modes and the reload bracket -/

/-- R283: an operation presented in a mode that does not accept it sets LOCKED, changes nothing and emits nothing; an
accepted one never sets LOCKED; reset enters CONFIG; CONFIG is entered by RELOAD_BEGIN and left by a successful RELOAD_END
only. -/
def Obligations.ModesAcceptAndLock : Prop :=
  State.reset.mode = .config ∧
  (∀ (i : Instr) (s : State), i.isOperation = true → accepts s.mode i = false →
    exec i s = .next (s.answered i.resp Flag.locked.mask [])) ∧
  (∀ (i : Instr) (s t : State), i.isOperation = true → accepts s.mode i = true → exec i s = .next t →
    Flag.locked.isSet t.flags = false) ∧
  (∀ (i : Instr) (s t : State), i.isOperation = true → exec i s = .next t → t.mode ≠ s.mode →
    (∃ r, i = .reloadBegin r ∧ t.mode = .config) ∨
    (∃ r, i = .reloadEnd r ∧ s.claimedByReader = false ∧ r.synOk = true ∧ t.mode = .run))

/-- NOP (R260), READER_CLAIM (R104) and RELOAD_BEGIN (R244): accepted in both modes, no flag, no record, one field at
most. -/
def Obligations.UnconditionalOperations : Prop :=
  ∀ (r : Resp) (s : State),
    exec (.nop r) s = .next (s.answered r 0 []) ∧
    exec (.readerClaim r) s = .next { s.answered r 0 [] with claimedByReader := true } ∧
    exec (.reloadBegin r) s = .next { s.answered r 0 [] with mode := .config }

/-- R245: RELOAD_END refused on a claimed bus or a failing transaction changes nothing; otherwise it writes power-up,
frequency, amplitude and key-off, in this order, re-initialises every working register and returns to RUN. -/
def Obligations.ReloadEndReinitialises : Prop :=
  ∀ (r : Resp) (s : State),
    (s.mode = .run → exec (.reloadEnd r) s = .next (s.answered r Flag.locked.mask [])) ∧
    (s.mode = .config → s.claimedByReader = true →
      exec (.reloadEnd r) s = .next (s.answered r Flag.busy.mask [])) ∧
    (s.mode = .config → s.claimedByReader = false → r.synOk = false →
      exec (.reloadEnd r) s = .next (s.answered r Flag.commSyn.mask [])) ∧
    (s.mode = .config → s.claimedByReader = false → r.synOk = true → s.cfgWpm ≠ 0 →
      exec (.reloadEnd r) s = .next { s.answered r 0
          [.synW .power 0, .synApply, .synW .freq s.cfgFreq, .synApply,
           .synW .amp (Config.params.ampWordOfPercent s.cfgAmpPct.toNat), .synApply, .synW .key 0, .synApply] with
        synBuf := ⟨0, Config.params.ampWordOfPercent s.cfgAmpPct.toNat, s.cfgFreq, 0⟩
        synAct := ⟨0, Config.params.ampWordOfPercent s.cfgAmpPct.toNat, s.cfgFreq, 0⟩
        poweredDown := false
        keyed := false
        ccBand := .none
        modulationEnabled := s.cfgModEn
        modPhase := 0
        modIndex := 0
        busAvailable := true
        morseUnit := BitVec.ofNat 8 (Config.params.wpmConst / s.cfgWpm.toNat)
        symbolIndex := 0
        unitsRemaining := 0
        rateCount := 0
        curIsMark := false
        resetFlag := false
        morseRunning := false
        winState := .notSet
        withinSlot := false
        winAlarmRetry := false
        mode := .run })

/-! ## Configuration writes -/

/-- R248: a rate in range is stored, any other stores the default and sets INVALID. -/
def Obligations.CfgWpmStoresOrFallsBack : Prop :=
  ∀ (r : Resp) (value : BitVec 8) (s : State), s.mode = .config →
    (5 ≤ value.toNat ∧ value.toNat ≤ 60 →
      exec (.cfgWpm r value) s = .next { s.answered r 0 [] with cfgWpm := value }) ∧
    (¬ (5 ≤ value.toNat ∧ value.toNat ≤ 60) →
      exec (.cfgWpm r value) s = .next { s.answered r Flag.invalid.mask [] with cfgWpm := 10 })

/-- R249 and R253: the two enables take every value. -/
def Obligations.CfgEnablesStore : Prop :=
  ∀ (r : Resp) (en : Bool) (s : State), s.mode = .config →
    exec (.cfgMorseEn r en) s = .next { s.answered r 0 [] with cfgMorseEn := en } ∧
    exec (.cfgModEn r en) s = .next { s.answered r 0 [] with cfgModEn := en }

/-- R251 and R252: lengths 1 to 64 are stored, any other sets INVALID and leaves the register; an index inside the ROM stores
the symbol there and leaves every other entry, any other sets INVALID. -/
def Obligations.CfgProgWritesLengthAndSymbols : Prop :=
  ∀ (r : Resp) (len : BitVec 16) (index : BitVec 8) (sym : Symbol) (s : State), s.mode = .config →
    (1 ≤ len.toNat ∧ len.toNat ≤ 64 →
      ∃ t, exec (.cfgProgLen r len) s = .next t ∧ t.cfgProgLen.toNat = len.toNat ∧
        t = { s.answered r 0 [] with cfgProgLen := t.cfgProgLen }) ∧
    (len.toNat < 1 ∨ 64 < len.toNat →
      exec (.cfgProgLen r len) s = .next (s.answered r Flag.invalid.mask [])) ∧
    (index.toNat < 64 →
      ∃ t, exec (.cfgProgSym r index sym) s = .next t ∧ t.prog[index.toNat]? = some sym ∧
        (∀ j : Nat, j ≠ index.toNat → t.prog[j]? = s.prog[j]?) ∧ t = { s.answered r 0 [] with prog := t.prog }) ∧
    (64 ≤ index.toNat → exec (.cfgProgSym r index sym) s = .next (s.answered r Flag.invalid.mask []))

/-- R254: an index inside the table with a legal amplitude word stores it there and leaves every other entry; any other
operand sets INVALID. The first part says so of the machine with any legal parameters, whose table may have up to 256
entries, the second of this machine. -/
def Obligations.CfgModTabStoresOneEntry : Prop :=
  (∀ (p : Config.Params) (r : Resp) (index : BitVec 8) (word : BitVec 32) (s : State.Of p), p.Legal → s.mode = .config →
    (index.toNat < p.modTableLen → word ≤ p.ampWordMax →
      ∃ t, execOf p (.cfgModTab r index word) s = .next t ∧ t.modTab[index.toNat]? = some word ∧
        (∀ j : Nat, j ≠ index.toNat → t.modTab[j]? = s.modTab[j]?) ∧
        t = { s.answered r 0 [] with modTab := t.modTab }) ∧
    (p.modTableLen ≤ index.toNat ∨ p.ampWordMax < word →
      execOf p (.cfgModTab r index word) s = .next (s.answered r Flag.invalid.mask []))) ∧
  (∀ (r : Resp) (index : BitVec 8) (word : BitVec 32) (s : State), s.mode = .config →
    (index.toNat < 10 → word ≤ Config.params.ampWordMax →
      ∃ t, exec (.cfgModTab r index word) s = .next t ∧ t.modTab[index.toNat]? = some word ∧
        (∀ j : Nat, j ≠ index.toNat → t.modTab[j]? = s.modTab[j]?) ∧
        t = { s.answered r 0 [] with modTab := t.modTab }) ∧
    (10 ≤ index.toNat ∨ Config.params.ampWordMax < word →
      exec (.cfgModTab r index word) s = .next (s.answered r Flag.invalid.mask [])))

/-- R255 and R256: a frequency in `FREQ_MIN .. FREQ_MAX`, a percentage up to 100; any other value sets INVALID and leaves
the register. -/
def Obligations.CfgFreqAndAmpStoreLegalValues : Prop :=
  ∀ (r : Resp) (hz : BitVec 32) (value : BitVec 8) (s : State), s.mode = .config →
    exec (.cfgFreq r hz) s = .next
      (if hz < Config.params.freqMin ∨ Config.params.freqMax < hz then s.answered r Flag.invalid.mask []
       else { s.answered r 0 [] with cfgFreq := hz }) ∧
    exec (.cfgAmp r value) s = .next
      (if 100 < value.toNat then s.answered r Flag.invalid.mask []
       else { s.answered r 0 [] with cfgAmpPct := value })

/-- R257: the three slot registers are written together or not at all. -/
def Obligations.CfgSlotWritesAllOrNothing : Prop :=
  ∀ (r : Resp) (n m t : BitVec 4) (s : State), s.mode = .config →
    (n.toNat ≤ 5 → 1 ≤ m.toNat → m.toNat ≤ 5 → t.toNat < m.toNat →
      exec (.cfgSlot r n m t) s = .next { s.answered r 0 [] with
        cfgFoxNumber := n, cfgFoxMax := m, cfgTransmitMinute := t }) ∧
    (5 < n.toNat ∨ m.toNat < 1 ∨ 5 < m.toNat ∨ m.toNat ≤ t.toNat →
      exec (.cfgSlot r n m t) s = .next (s.answered r Flag.invalid.mask []))

/-- R258 and R259: a DateTime with every field in its range (R15) is stored, any other sets INVALID. -/
def Obligations.CfgWindowStoresLegalDateTimes : Prop :=
  ∀ (r : Resp) (d : DateTime) (s : State), s.mode = .config →
    (d.second.toNat ≤ 59 ∧ d.minute.toNat ≤ 59 ∧ d.hour.toNat ≤ 23 ∧ 1 ≤ d.date.toNat ∧ d.date.toNat ≤ 31 ∧
        1 ≤ d.month.toNat ∧ d.month.toNat ≤ 12 ∧ d.year.toNat ≤ 99 ∧ 1 ≤ d.weekday.toNat ∧ d.weekday.toNat ≤ 7 →
      exec (.cfgWinStart r d) s = .next { s.answered r 0 [] with cfgWinStart := d } ∧
      exec (.cfgWinStop r d) s = .next { s.answered r 0 [] with cfgWinStop := d }) ∧
    (59 < d.second.toNat ∨ 59 < d.minute.toNat ∨ 23 < d.hour.toNat ∨ d.date = 0 ∨ d.month = 0 ∨ 12 < d.month.toNat ∨
        99 < d.year.toNat ∨ d.weekday = 0 →
      exec (.cfgWinStart r d) s = .next (s.answered r Flag.invalid.mask []) ∧
      exec (.cfgWinStop r d) s = .next (s.answered r Flag.invalid.mask []))

/-! ## The arbiter and the key operations -/

/-- READER_RELEASE (R103, R105): the claim and the slot are cleared and the stored action, if any, runs on the free bus. -/
def Obligations.ReaderReleaseDrainsTheSlot : Prop :=
  ∀ (r : Resp) (s : State),
    (s.deferred = .none →
      exec (.readerRelease r) s = .next { s.answered r 0 [] with claimedByReader := false }) ∧
    (s.deferred = .turnOn → s.poweredDown = true →
      exec (.readerRelease r) s = .next { s.answered r Flag.invalid.mask [] with
        claimedByReader := false, deferred := .none }) ∧
    (s.deferred = .turnOn ∧ s.poweredDown = false ∨ s.deferred = .turnOff → r.synOk = false →
      exec (.readerRelease r) s = .next { s.answered r Flag.commSyn.mask [] with
        claimedByReader := false, deferred := .none }) ∧
    (s.deferred = .turnOn → s.poweredDown = false → r.synOk = true →
      exec (.readerRelease r) s = .next { (s.synHolds .key 1).answered r 0 (synRecords .key 1) with
        claimedByReader := false, deferred := .none, keyed := true }) ∧
    (s.deferred = .turnOff → r.synOk = true →
      exec (.readerRelease r) s = .next { (s.synHolds .key 0).answered r 0 (synRecords .key 0) with
        claimedByReader := false, deferred := .none, keyed := false })

/-- SYN_KEYON in RUN mode is the primitive keyOn (R122, R124): refused while powered down, else deferred on a claimed bus,
else failed, else the transaction and `keyed`. -/
def Obligations.SynKeyonKeysOrDefers : Prop :=
  ∀ (r : Resp) (s : State), s.mode = .run →
    (s.poweredDown = true → exec (.synKeyon r) s = .next (s.answered r Flag.invalid.mask [])) ∧
    (s.poweredDown = false → s.claimedByReader = true →
      exec (.synKeyon r) s = .next { s.answered r Flag.deferred.mask [] with deferred := .turnOn }) ∧
    (s.poweredDown = false → s.claimedByReader = false → r.synOk = false →
      exec (.synKeyon r) s = .next (s.answered r Flag.commSyn.mask [])) ∧
    (s.poweredDown = false → s.claimedByReader = false → r.synOk = true →
      exec (.synKeyon r) s = .next { (s.synHolds .key 1).answered r 0 (synRecords .key 1) with keyed := true })

/-- SYN_KEYOFF in RUN mode is the primitive keyOff (R123, R125); there is no power-down check. -/
def Obligations.SynKeyoffKeysOrDefers : Prop :=
  ∀ (r : Resp) (s : State), s.mode = .run →
    (s.claimedByReader = true →
      exec (.synKeyoff r) s = .next { s.answered r Flag.deferred.mask [] with deferred := .turnOff }) ∧
    (s.claimedByReader = false → r.synOk = false →
      exec (.synKeyoff r) s = .next (s.answered r Flag.commSyn.mask [])) ∧
    (s.claimedByReader = false → r.synOk = true →
      exec (.synKeyoff r) s = .next { (s.synHolds .key 0).answered r 0 (synRecords .key 0) with keyed := false })

/-- R109: between a claim and its release any number of denied key requests leave `keyed` and the chip alone, and the
release applies exactly the last of them. -/
def Obligations.OnlyTheLastDeniedRequestRuns : Prop :=
  ∀ (reqs : List (Bool × Resp)) (r0 r1 : Resp) (s : State),
    s.mode = .run → s.poweredDown = false → s.deferred = .none → r1.synOk = true →
    ∃ m u, runOps (.readerClaim r0 :: reqs.map (fun q => keyRequest q.1 q.2)) s = .next m ∧
      m.keyed = s.keyed ∧ m.synBuf = s.synBuf ∧ m.synAct = s.synAct ∧ m.claimedByReader = true ∧
      m.deferred = (match reqs.getLast? with | none => .none | some q => requestedAction q.1) ∧
      exec (.readerRelease r1) m = .next u ∧ u.claimedByReader = false ∧ u.deferred = .none ∧ u.flags = 0 ∧
      u.keyed = (match reqs.getLast? with | none => s.keyed | some q => q.1) ∧
      u.out = (match reqs.getLast? with | none => [] | some q => synRecords .key (if q.1 then 1 else 0))

/-! ## The synthesizer driver -/

/-- SYN_SETFREQ and SYN_SETAMP (R121, R126, R127): range, then bus, then transaction; only the chip image changes. -/
def Obligations.SynSetWritesTheImage : Prop :=
  ∀ (r : Resp) (hz : BitVec 32) (value : BitVec 8) (s : State), s.mode = .run →
    exec (.synSetfreq r hz) s = .next
      (if hz < Config.params.freqMin ∨ Config.params.freqMax < hz then s.answered r Flag.invalid.mask []
       else if s.claimedByReader then s.answered r Flag.busy.mask []
       else if r.synOk then (s.synHolds .freq hz).answered r 0 (synRecords .freq hz)
       else s.answered r Flag.commSyn.mask []) ∧
    exec (.synSetamp r value) s = .next
      (if 100 < value.toNat then s.answered r Flag.invalid.mask []
       else if s.claimedByReader then s.answered r Flag.busy.mask []
       else if r.synOk then
         (s.synHolds .amp (Config.params.ampWordOfPercent value.toNat)).answered r 0
           (synRecords .amp (Config.params.ampWordOfPercent value.toNat))
       else s.answered r Flag.commSyn.mask [])

/-- SYN_PWRDOWN (R128): refused in continuous-carrier mode, then bus, then transaction; key-off comes before power-down.
SYN_PWRUP (R129): bus, then transaction; `keyed` is left alone. -/
def Obligations.SynPowerDownAndUp : Prop :=
  ∀ (r : Resp) (s : State), s.mode = .run →
    (s.ccBand ≠ .none → exec (.synPwrdown r) s = .next (s.answered r Flag.invalid.mask [])) ∧
    (s.ccBand = .none → s.claimedByReader = true →
      exec (.synPwrdown r) s = .next (s.answered r Flag.busy.mask [])) ∧
    (s.ccBand = .none → s.claimedByReader = false → r.synOk = false →
      exec (.synPwrdown r) s = .next (s.answered r Flag.commSyn.mask [])) ∧
    (s.ccBand = .none → s.claimedByReader = false → r.synOk = true → s.keyed = false →
      exec (.synPwrdown r) s =
        .next { (s.synHolds .power 1).answered r 0 (synRecords .power 1) with poweredDown := true }) ∧
    (s.ccBand = .none → s.claimedByReader = false → r.synOk = true → s.keyed = true →
      exec (.synPwrdown r) s =
        .next { ((s.synHolds .key 0).synHolds .power 1).answered r 0 (synRecords .key 0 ++ synRecords .power 1) with
          keyed := false, poweredDown := true }) ∧
    (s.claimedByReader = true → exec (.synPwrup r) s = .next (s.answered r Flag.busy.mask [])) ∧
    (s.claimedByReader = false → r.synOk = false →
      exec (.synPwrup r) s = .next (s.answered r Flag.commSyn.mask [])) ∧
    (s.claimedByReader = false → r.synOk = true →
      exec (.synPwrup r) s =
        .next { (s.synHolds .power 0).answered r 0 (synRecords .power 0) with poweredDown := false })

/-- CC_ENABLE (R130): band and power checks, then bus, then transaction; key-off, band, key-on, and the engine stopped
without a key-off of its own. -/
def Obligations.CcEnableForcesTheCarrier : Prop :=
  ∀ (r : Resp) (band : BitVec 2) (s : State), s.mode = .run →
    (band = 0 ∨ band = 3 ∨ s.poweredDown = true →
      exec (.ccEnable r band) s = .next (s.answered r Flag.invalid.mask [])) ∧
    (band = 1 ∨ band = 2 → s.poweredDown = false → s.claimedByReader = true →
      exec (.ccEnable r band) s = .next (s.answered r Flag.busy.mask [])) ∧
    (band = 1 ∨ band = 2 → s.poweredDown = false → s.claimedByReader = false → r.synOk = false →
      exec (.ccEnable r band) s = .next (s.answered r Flag.commSyn.mask [])) ∧
    (band = 1 ∨ band = 2 → s.poweredDown = false → s.claimedByReader = false → r.synOk = true →
      ∃ b : CcBand, b.code = band ∧
        exec (.ccEnable r band) s =
          .next { (s.synHolds .key 1).answered r 0 (synRecords .key 0 ++ synRecords .key 1) with
            ccBand := b, keyed := true, morseRunning := false, resetFlag := false })

/-- CC_DISABLE (R131): nothing outside the mode; else bus, then transaction; key-off, band cleared, and the engine started
with `resetFlag` where the window and slot gates are open. -/
def Obligations.CcDisableRestoresKeying : Prop :=
  ∀ (r : Resp) (s : State), s.mode = .run →
    (s.ccBand = .none → exec (.ccDisable r) s = .next (s.answered r 0 [])) ∧
    (s.ccBand ≠ .none → s.claimedByReader = true →
      exec (.ccDisable r) s = .next (s.answered r Flag.busy.mask [])) ∧
    (s.ccBand ≠ .none → s.claimedByReader = false → r.synOk = false →
      exec (.ccDisable r) s = .next (s.answered r Flag.commSyn.mask [])) ∧
    (s.ccBand ≠ .none → s.claimedByReader = false → r.synOk = true → s.morseRunning = false →
      s.winState = .inWindow ∧ (s.cfgFoxNumber = 0 ∨ s.withinSlot = true) →
      exec (.ccDisable r) s =
        .next { (s.synHolds .key 0).answered r 0 (synRecords .key 0) with
          keyed := false, ccBand := .none, morseRunning := true, resetFlag := true }) ∧
    (s.ccBand ≠ .none → s.claimedByReader = false → r.synOk = true → s.morseRunning = false →
      ¬ (s.winState = .inWindow ∧ (s.cfgFoxNumber = 0 ∨ s.withinSlot = true)) →
      exec (.ccDisable r) s =
        .next { (s.synHolds .key 0).answered r 0 (synRecords .key 0) with keyed := false, ccBand := .none })

/-! ## The modulation engine -/

/-- TICK_MOD off its write tick (R151, R152, R153): idle it only raises `busAvailable`; running it marks the yield phase
and advances `modPhase`. -/
def Obligations.TickModIdleAndPhase : Prop :=
  ∀ (r : Resp) (s : State), s.mode = .run →
    (s.modulationEnabled = false ∨ s.keyed = false →
      exec (.tickMod r) s = .next { s.answered r 0 [] with busAvailable := true }) ∧
    (s.modulationEnabled = true → s.keyed = true → s.modPhase.toNat + 1 < Config.params.modCycle →
      exec (.tickMod r) s = .next { s.answered r 0 [] with
        busAvailable := decide (s.modPhase.toNat < Config.params.modYield), modPhase := s.modPhase + 1 })

/-- TICK_MOD on its write tick (R152, R154): the index advances before the read and whatever becomes of the write; a
claimed bus drops the sample with BUSY, a failing transaction with COMM_SYN, and `deferred` is untouched. -/
def Obligations.TickModWritesOneSample : Prop :=
  ∀ (r : Resp) (s : State) (v : Word), s.mode = .run → s.modulationEnabled = true → s.keyed = true →
    s.modPhase.toNat + 1 = Config.params.modCycle → s.modIndex.toNat < 10 →
    s.modTab[(s.modIndex.toNat + 1) % 10]? = some v →
    ∃ k : BitVec 8, k.toNat = (s.modIndex.toNat + 1) % 10 ∧
      (s.claimedByReader = true → exec (.tickMod r) s =
        .next { s.answered r Flag.busy.mask [] with busAvailable := false, modIndex := k, modPhase := 0 }) ∧
      (s.claimedByReader = false → r.synOk = false → exec (.tickMod r) s =
        .next { s.answered r Flag.commSyn.mask [] with busAvailable := false, modIndex := k, modPhase := 0 }) ∧
      (s.claimedByReader = false → r.synOk = true → exec (.tickMod r) s =
        .next { (s.synHolds .amp v).answered r 0 (synRecords .amp v) with
          busAvailable := false, modIndex := k, modPhase := 0 })

/-- R155: from `modPhase` 0, `n` running ticks leave `modPhase` at `n` modulo the cycle and move the index once a cycle,
whatever the bus and the transactions answer. -/
def Obligations.ModulationIndexLaw : Prop :=
  ∀ (rs : List Resp) (s : State), s.mode = .run → s.modulationEnabled = true → s.keyed = true → s.modPhase = 0 →
    s.modIndex.toNat < 10 →
    ∃ t, runOps (rs.map Instr.tickMod) s = .next t ∧
      t.modPhase.toNat = rs.length % Config.params.modCycle ∧
      t.modIndex.toNat = (s.modIndex.toNat + rs.length / Config.params.modCycle) % 10 ∧
      t.keyed = true ∧ t.deferred = s.deferred

/-! ## The Morse engine -/

/-- The four symbols at load (R166, R175 to R178): a mark loads its keyed units and keys on, with every fate of keyOn; a
space loads its length less one and calls no key primitive. -/
def Obligations.SymbolsAtLoad : Prop :=
  ∀ s : State,
    exec .lsp s = .next { s with unitsRemaining := 2, curIsMark := false } ∧
    exec .wsp s = .next { s with unitsRemaining := 6, curIsMark := false } ∧
    (∀ p : Instr × BitVec 4, p = (.dot, 1) ∨ p = (.dash, 3) →
      (s.poweredDown = true → exec p.1 s = .next { s with
        unitsRemaining := p.2, curIsMark := true, flags := s.flags ||| Flag.invalid.mask }) ∧
      (s.poweredDown = false → s.claimedByReader = true → exec p.1 s = .next { s with
        unitsRemaining := p.2, curIsMark := true, deferred := .turnOn, flags := s.flags ||| Flag.deferred.mask }) ∧
      (s.poweredDown = false → s.claimedByReader = false → s.resp.synOk = false → exec p.1 s = .next { s with
        unitsRemaining := p.2, curIsMark := true, flags := s.flags ||| Flag.commSyn.mask }) ∧
      (s.poweredDown = false → s.claimedByReader = false → s.resp.synOk = true → exec p.1 s = .next
        { s.synHolds .key 1 with
          unitsRemaining := p.2, curIsMark := true, keyed := true, out := s.out ++ synRecords .key 1 }))

/-- TICK_MORSE between unit steps and in a stopped engine (R170): a stopped engine does not move at all; a tick that finds
`rateCount` not 0 only advances it. -/
def Obligations.TickMorseStoppedOrCounting : Prop :=
  ∀ (r : Resp) (s : State), s.mode = .run →
    (s.morseRunning = false → exec (.tickMorse r) s = .next (s.answered r 0 [])) ∧
    (s.morseRunning = true → s.resetFlag = false → s.cfgMorseEn = true → s.rateCount ≠ 0 →
      exec (.tickMorse r) s = .next { s.answered r 0 [] with
        rateCount := if s.rateCount.toNat + 1 = s.morseUnit.toNat then 0 else s.rateCount + 1 })

/-- R171: a tick that finds `resetFlag` set acts as on the zeroed cursor with the flag cleared. -/
def Obligations.RestartBeginsAFreshWord : Prop :=
  ∀ (r : Resp) (s : State), s.mode = .run → s.morseRunning = true → s.resetFlag = true →
    exec (.tickMorse r) s = exec (.tickMorse r) { s with
      symbolIndex := 0, unitsRemaining := 0, rateCount := 0, curIsMark := false, resetFlag := false }

/-- R179: with Morse mode disabled a running engine keys on at every tick that finds the carrier not keyed, and otherwise
does nothing. -/
def Obligations.MorseDisabledHoldsTheCarrier : Prop :=
  ∀ (r : Resp) (s : State), s.mode = .run → s.morseRunning = true → s.resetFlag = false → s.cfgMorseEn = false →
    (s.keyed = true → exec (.tickMorse r) s = .next (s.answered r 0 [])) ∧
    (s.keyed = false → s.poweredDown = true →
      exec (.tickMorse r) s = .next (s.answered r Flag.invalid.mask [])) ∧
    (s.keyed = false → s.poweredDown = false → s.claimedByReader = true →
      exec (.tickMorse r) s = .next { s.answered r Flag.deferred.mask [] with deferred := .turnOn }) ∧
    (s.keyed = false → s.poweredDown = false → s.claimedByReader = false → r.synOk = false →
      exec (.tickMorse r) s = .next (s.answered r Flag.commSyn.mask [])) ∧
    (s.keyed = false → s.poweredDown = false → s.claimedByReader = false → r.synOk = true →
      exec (.tickMorse r) s =
        .next { (s.synHolds .key 1).answered r 0 (synRecords .key 1) with keyed := true })

/-- The count-down half of a unit step (R172, R174): one unit less, and a key-off exactly where a mark's count reaches 0. -/
def Obligations.UnitStepCountsDown : Prop :=
  ∀ (r : Resp) (s : State) (c : BitVec 8), s.mode = .run → s.morseRunning = true → s.resetFlag = false →
    s.cfgMorseEn = true → s.rateCount = 0 → c = (if 1 = s.morseUnit.toNat then 0 else 1) →
    (s.unitsRemaining ≠ 0 → s.unitsRemaining ≠ 1 ∨ s.curIsMark = false →
      exec (.tickMorse r) s = .next { s.answered r 0 [] with
        unitsRemaining := s.unitsRemaining - 1, rateCount := c }) ∧
    (s.unitsRemaining = 1 → s.curIsMark = true → s.claimedByReader = true →
      exec (.tickMorse r) s = .next { s.answered r Flag.deferred.mask [] with
        unitsRemaining := 0, curIsMark := false, deferred := .turnOff, rateCount := c }) ∧
    (s.unitsRemaining = 1 → s.curIsMark = true → s.claimedByReader = false → r.synOk = false →
      exec (.tickMorse r) s = .next { s.answered r Flag.commSyn.mask [] with
        unitsRemaining := 0, curIsMark := false, rateCount := c }) ∧
    (s.unitsRemaining = 1 → s.curIsMark = true → s.claimedByReader = false → r.synOk = true →
      exec (.tickMorse r) s = .next { (s.synHolds .key 0).answered r 0 (synRecords .key 0) with
        unitsRemaining := 0, curIsMark := false, keyed := false, rateCount := c })

/-- The four stops of the model, all in states outside the invariant, where R61, R62, R167 and R208 give no value: a fetch at
or beyond the program's length faults, a table read beyond its end faults, a rate of 0 words per minute is refused, a
remainder modulo 0 is refused. That the run stops there is the model's choice (log 10, log 11, log 12). -/
def Obligations.NoValueOutsideTheRoms : Prop :=
  (∀ (r : Resp) (s : State), s.mode = .run → s.morseRunning = true → s.resetFlag = false → s.cfgMorseEn = true →
    s.rateCount = 0 → s.unitsRemaining = 0 → s.cfgProgLen.toNat ≤ s.symbolIndex.toNat →
    exec (.tickMorse r) s = .fault .progReadOutOfRange) ∧
  (∀ (r : Resp) (s : State), s.mode = .run → s.modulationEnabled = true → s.keyed = true →
    s.modPhase.toNat + 1 = Config.params.modCycle → s.claimedByReader = false → r.synOk = true →
    10 ≤ s.modIndex.toNat → s.modIndex.toNat < 255 → exec (.tickMod r) s = .fault .tabReadOutOfRange) ∧
  (∀ (r : Resp) (s : State), s.mode = .config → s.claimedByReader = false → r.synOk = true → s.cfgWpm = 0 →
    exec (.reloadEnd r) s = .refused .unitOfZeroWpm) ∧
  (∀ (r : Resp) (m : BitVec 6) (s : State), s.mode = .run → m.toNat ≤ 59 → s.cfgFoxMax = 0 →
    exec (.evalSlot r m) s = .refused .slotModuloZero)

/-- R183: the cursor, the rate counter and `curIsMark` move the same whatever the bus, the power, the keying and the
transactions answer. -/
def Obligations.CursorIgnoresTheBus : Prop :=
  ∀ (r r' : Resp) (s t : State) (claimed keyed down : Bool) (d : Deferred), s.cfgMorseEn = true →
    exec (.tickMorse r) s = .next t →
    ∃ t', exec (.tickMorse r') { s with
        claimedByReader := claimed, keyed := keyed, poweredDown := down, deferred := d } = .next t' ∧
      t'.symbolIndex = t.symbolIndex ∧ t'.unitsRemaining = t.unitsRemaining ∧ t'.rateCount = t.rateCount ∧
      t'.curIsMark = t.curIsMark

/-- R182, the timeline: after a restart with the bus free and every transaction answered, on an unkeyed carrier or with a
mark first, `keyed` after tick number `n` is 1 exactly where the unit step in progress lies in the keyed part of a mark of
the program, read round and round. -/
def Obligations.TimelineOfAProgram : Prop :=
  ∀ (n : Nat) (s : State), s.mode = .run → s.morseRunning = true → s.resetFlag = true → s.cfgMorseEn = true →
    s.claimedByReader = false → s.poweredDown = false → 1 ≤ s.cfgProgLen.toNat → s.cfgProgLen.toNat ≤ 64 →
    1 ≤ s.morseUnit.toNat → (s.keyed = false ∨ 1 ≤ keyedUnits Config.params (s.symbolNumber 0)) →
    ∃ t, runTimes (n + 1) (.tickMorse ⟨true, true⟩) s = .next t ∧
      (t.keyed = true ↔ ∃ k, s.fetchUnit k ≤ n / s.morseUnit.toNat ∧
        n / s.morseUnit.toNat < s.fetchUnit k + keyedUnits Config.params (s.symbolNumber k))

/-! ## The scheduler -/

/-- EVAL_WINDOW without a transition (R205, R206, R207): an illegal `now` sets INVALID; an unchanged window does nothing
but repeat a failed alarm write. -/
def Obligations.EvalWindowUnchanged : Prop :=
  ∀ (r : Resp) (now : DateTime) (s : State), s.mode = .run →
    (now.legal Config.params = false → exec (.evalWindow r now) s = .next (s.answered r Flag.invalid.mask [])) ∧
    (now.legal Config.params = true → s.winState = (if inWindow s.cfgWinStart s.cfgWinStop now then .inWindow else .outOfWindow) →
      (s.winAlarmRetry = false → exec (.evalWindow r now) s = .next (s.answered r 0 [])) ∧
      (s.winAlarmRetry = true → r.rtcOk = false →
        exec (.evalWindow r now) s = .next (s.answered r Flag.commRtc.mask [])) ∧
      (s.winAlarmRetry = true → r.rtcOk = true → s.winState = .inWindow →
        exec (.evalWindow r now) s = .next { s.answered r 0 [.rtcA1 s.cfgWinStop] with
          rtcAlarm1 := s.cfgWinStop, winAlarmRetry := false }) ∧
      (s.winAlarmRetry = true → r.rtcOk = true → s.winState = .outOfWindow →
        exec (.evalWindow r now) s = .next { s.answered r 0 [.rtcA1 s.cfgWinStart] with
          rtcAlarm1 := s.cfgWinStart, winAlarmRetry := false }))

/-- EVAL_WINDOW into the window (R202, R205), for a stopped engine: the alarm for the stop, the engine started where the
slot gate is open, the notification; all but the alarm whatever the clock answers. -/
def Obligations.EvalWindowEnters : Prop :=
  ∀ (r : Resp) (now : DateTime) (s : State), s.mode = .run → now.legal Config.params = true →
    inWindow s.cfgWinStart s.cfgWinStop now = true → s.winState ≠ .inWindow → s.morseRunning = false →
    exec (.evalWindow r now) s = .next
      { s.answered r (if r.rtcOk then 0 else Flag.commRtc.mask)
          ((if r.rtcOk then [.rtcA1 s.cfgWinStop] else []) ++ [.note .windowEntered]) with
        winState := .inWindow
        winAlarmRetry := !r.rtcOk
        rtcAlarm1 := if r.rtcOk then s.cfgWinStop else s.rtcAlarm1
        morseRunning := (decide (s.cfgFoxNumber = 0) || s.withinSlot) && decide (s.ccBand = .none)
        resetFlag := if (s.cfgFoxNumber = 0 ∨ s.withinSlot = true) ∧ s.ccBand = .none then true else s.resetFlag }

/-- EVAL_WINDOW out of the window (R202, R205): a running engine is stopped with one key-off (deferred, failed or done),
then the alarm for the start, then the notification; a stopped engine gets no key-off. -/
def Obligations.EvalWindowLeaves : Prop :=
  ∀ (r : Resp) (now : DateTime) (s : State), s.mode = .run → now.legal Config.params = true →
    inWindow s.cfgWinStart s.cfgWinStop now = false → s.winState ≠ .outOfWindow →
    ∀ (f : BitVec 8) (o : List OutRecord), f = (if r.rtcOk then 0 else Flag.commRtc.mask) →
    o = (if r.rtcOk then [.rtcA1 s.cfgWinStart] else []) ++ [.note .windowLeft] →
    (s.morseRunning = false → exec (.evalWindow r now) s = .next { s.answered r f o with
      winState := .outOfWindow, winAlarmRetry := !r.rtcOk
      rtcAlarm1 := if r.rtcOk then s.cfgWinStart else s.rtcAlarm1 }) ∧
    (s.morseRunning = true → s.claimedByReader = true →
      exec (.evalWindow r now) s = .next { s.answered r (Flag.deferred.mask ||| f) o with
        winState := .outOfWindow, winAlarmRetry := !r.rtcOk
        rtcAlarm1 := if r.rtcOk then s.cfgWinStart else s.rtcAlarm1
        morseRunning := false, resetFlag := false, deferred := .turnOff }) ∧
    (s.morseRunning = true → s.claimedByReader = false → r.synOk = false →
      exec (.evalWindow r now) s = .next { s.answered r (Flag.commSyn.mask ||| f) o with
        winState := .outOfWindow, winAlarmRetry := !r.rtcOk
        rtcAlarm1 := if r.rtcOk then s.cfgWinStart else s.rtcAlarm1
        morseRunning := false, resetFlag := false }) ∧
    (s.morseRunning = true → s.claimedByReader = false → r.synOk = true →
      exec (.evalWindow r now) s = .next { (s.synHolds .key 0).answered r f (synRecords .key 0 ++ o) with
        winState := .outOfWindow, winAlarmRetry := !r.rtcOk
        rtcAlarm1 := if r.rtcOk then s.cfgWinStart else s.rtcAlarm1
        morseRunning := false, resetFlag := false, keyed := false })

/-- EVAL_SLOT at an on-minute (R215), where `morseRunning` is the registered gate (R27): the off-alarm for the next minute
at every evaluation, the slot, the start and the notification at the edge only. -/
def Obligations.EvalSlotOnMinute : Prop :=
  ∀ (r : Resp) (m : BitVec 6) (s : State), s.mode = .run → m.toNat ≤ 59 → s.cfgFoxMax ≠ 0 →
    s.onMinute m.toNat = true → s.morseRunning = s.gate →
    ∃ a : BitVec 6, a.toNat = (m.toNat + 1) % 60 ∧
    (s.withinSlot = true → exec (.evalSlot r m) s = .next
      { s.answered r (if r.rtcOk then 0 else Flag.commRtc.mask) (if r.rtcOk then [.rtcA2 a] else []) with
        rtcAlarm2 := if r.rtcOk then a else s.rtcAlarm2 }) ∧
    (s.withinSlot = false → exec (.evalSlot r m) s = .next
      { s.answered r (if r.rtcOk then 0 else Flag.commRtc.mask)
          ((if r.rtcOk then [.rtcA2 a] else []) ++ [.note .slotOn]) with
        rtcAlarm2 := if r.rtcOk then a else s.rtcAlarm2
        withinSlot := true
        morseRunning := decide (s.winState = .inWindow) && decide (s.ccBand = .none)
        resetFlag :=
          if s.winState = .inWindow ∧ s.ccBand = .none ∧ s.morseRunning = false then true else s.resetFlag })

/-- EVAL_SLOT at an off-minute (R209, R210, R215), where `morseRunning` is the registered gate (R27): the on-alarm for the
next on-minute at every evaluation; at the edge the slot closes, a running engine that is not the demonstration fox's is
stopped with one key-off, and the notification is sent. -/
def Obligations.EvalSlotOffMinute : Prop :=
  ∀ (r : Resp) (m : BitVec 6) (s : State), s.mode = .run → m.toNat ≤ 59 → s.cfgFoxMax ≠ 0 →
    s.onMinute m.toNat = false → s.offMinute m.toNat = true → s.morseRunning = s.gate →
    ∃ a : BitVec 6, a.toNat = s.nextOn m.toNat ∧
    ∀ (f : BitVec 8) (o : List OutRecord), f = (if r.rtcOk then 0 else Flag.commRtc.mask) →
    o = (if r.rtcOk then [.rtcA2 a] else []) ++ (if s.withinSlot then [.note .slotOff] else []) →
    (s.withinSlot = false ∨ s.morseRunning = false ∨ s.cfgFoxNumber = 0 →
      exec (.evalSlot r m) s = .next { s.answered r f o with
        rtcAlarm2 := if r.rtcOk then a else s.rtcAlarm2, withinSlot := false }) ∧
    (s.withinSlot = true → s.morseRunning = true → s.cfgFoxNumber ≠ 0 → s.claimedByReader = true →
      exec (.evalSlot r m) s = .next { s.answered r (Flag.deferred.mask ||| f) o with
        rtcAlarm2 := if r.rtcOk then a else s.rtcAlarm2, withinSlot := false
        morseRunning := false, resetFlag := false, deferred := .turnOff }) ∧
    (s.withinSlot = true → s.morseRunning = true → s.cfgFoxNumber ≠ 0 → s.claimedByReader = false → r.synOk = false →
      exec (.evalSlot r m) s = .next { s.answered r (Flag.commSyn.mask ||| f) o with
        rtcAlarm2 := if r.rtcOk then a else s.rtcAlarm2, withinSlot := false
        morseRunning := false, resetFlag := false }) ∧
    (s.withinSlot = true → s.morseRunning = true → s.cfgFoxNumber ≠ 0 → s.claimedByReader = false → r.synOk = true →
      exec (.evalSlot r m) s = .next { (s.synHolds .key 0).answered r f (synRecords .key 0 ++ o) with
        rtcAlarm2 := if r.rtcOk then a else s.rtcAlarm2, withinSlot := false
        morseRunning := false, resetFlag := false, keyed := false })

/-- EVAL_SLOT with a minute above 59, or on neither boundary (R215, R216): INVALID and nothing else; MISALIGNED and the
alarm that belongs to the last known state. -/
def Obligations.EvalSlotInvalidOrMisaligned : Prop :=
  ∀ (r : Resp) (m : BitVec 6) (s : State), s.mode = .run →
    (59 < m.toNat → exec (.evalSlot r m) s = .next (s.answered r Flag.invalid.mask [])) ∧
    (m.toNat ≤ 59 → s.cfgFoxMax ≠ 0 → s.onMinute m.toNat = false → s.offMinute m.toNat = false →
      ∃ a : BitVec 6, a.toNat = (if s.withinSlot then (m.toNat + 1) % 60 else s.nextOn m.toNat) ∧
        (r.rtcOk = true → exec (.evalSlot r m) s =
          .next { s.answered r Flag.misaligned.mask [.rtcA2 a] with rtcAlarm2 := a }) ∧
        (r.rtcOk = false → exec (.evalSlot r m) s =
          .next (s.answered r (Flag.misaligned.mask ||| Flag.commRtc.mask) [])))

/-- R208, R209, R210, for every legal slot: a minute is an on-minute exactly where its distance from the start, which may be
negative, is `transmitMinute` more than a multiple of `foxMax`; it is an off-minute exactly where the minute before is an
on-minute, minute 59 being before minute 0; and the closed form gives the least distance from 1 to `foxMax` to an
on-minute. The scheduler asks with the configured slot and the minute of the window's start. -/
def Obligations.NextOnMinuteIsTheLeast : Prop :=
  (∀ (start foxMax transmit m : Nat), 1 ≤ foxMax → foxMax ≤ 5 → transmit < foxMax → start ≤ 59 → m ≤ 59 →
    (isOnMinute start foxMax transmit m = true ↔ ∃ q : Int, (m : Int) = start + q * foxMax + transmit) ∧
    (isOffMinute start foxMax transmit m = isOnMinute start foxMax transmit (if m = 0 then 59 else m - 1)) ∧
    ∃ k, 1 ≤ k ∧ k ≤ foxMax ∧ nextOnMinute start foxMax transmit m = (m + k) % 60 ∧
      isOnMinute start foxMax transmit ((m + k) % 60) = true ∧
      ∀ j, 1 ≤ j → j < k → isOnMinute start foxMax transmit ((m + j) % 60) = false) ∧
  (∀ (s : State) (m : Nat),
    s.onMinute m = isOnMinute s.cfgWinStart.minute.toNat s.cfgFoxMax.toNat s.cfgTransmitMinute.toNat m ∧
    s.offMinute m = isOffMinute s.cfgWinStart.minute.toNat s.cfgFoxMax.toNat s.cfgTransmitMinute.toNat m ∧
    s.nextOn m = nextOnMinute s.cfgWinStart.minute.toNat s.cfgFoxMax.toNat s.cfgTransmitMinute.toNat m)

/-- R16 and R201: the order of DateTimes is that of their numbers with the weekday left out, equality to the start is
inside, equality to the stop outside, and an empty or inverted window never opens. -/
def Obligations.WindowOrderIsLexicographic : Prop :=
  (∀ a b : DateTime, a.lexLt b = true ↔
    ({ a with weekday := 0 } : DateTime).payload < ({ b with weekday := 0 } : DateTime).payload) ∧
  (∀ start stop now : DateTime, inWindow start stop now = true ↔
    ({ start with weekday := 0 } : DateTime).payload ≤ ({ now with weekday := 0 } : DateTime).payload ∧
    ({ now with weekday := 0 } : DateTime).payload < ({ stop with weekday := 0 } : DateTime).payload) ∧
  (∀ start stop now : DateTime, stop.lexLe start = true → inWindow start stop now = false)

/-- R218: in continuous-carrier mode the scheduler leaves the forced carrier and the stopped engine alone. -/
def Obligations.SchedulerLeavesTheForcedCarrier : Prop :=
  ∀ (i : Instr) (s t : State), (∃ r now, i = .evalWindow r now) ∨ (∃ r m, i = .evalSlot r m) →
    s.ccBand ≠ .none → s.morseRunning = false → exec i s = .next t →
    t.keyed = s.keyed ∧ t.synBuf = s.synBuf ∧ t.synAct = s.synAct ∧ t.ccBand = s.ccBand ∧ t.morseRunning = false ∧
      t.deferred = s.deferred ∧ ∀ o ∈ t.out, o.drivesBus = false

/-- R169: for every legal choice of the parameters, from a rate in range to the unit and back to the unit is the identity,
the rate that comes back is not below the rate, and it is the rate exactly where the two divisions say so; with the
defaults it is the least of the 23 listed rates that is not below the rate. -/
def Obligations.RateRoundTrip : Prop :=
  (∀ p : Config.Params, p.Legal → ∀ wpm : Nat, p.wpmMin ≤ wpm → wpm ≤ p.wpmMax →
    ∃ unit back, convertToUnit p wpm = some unit ∧ convertToWpm p unit = some back ∧ convertToUnit p back = some unit ∧
      wpm ≤ back ∧ (back = wpm ↔ wpm = p.wpmConst / (p.wpmConst / wpm))) ∧
  (∀ wpm : Nat, 5 ≤ wpm → wpm ≤ 60 →
    ∃ unit back, convertToUnit Config.params wpm = some unit ∧ convertToWpm Config.params unit = some back ∧
      (back = wpm ↔ wpm ∈ [5, 6, 7, 8, 9, 10, 11, 12, 13, 14, 15, 16, 17, 18, 20, 21, 24, 26, 30, 34, 40, 48, 60]) ∧
      back ∈ [5, 6, 7, 8, 9, 10, 11, 12, 13, 14, 15, 16, 17, 18, 20, 21, 24, 26, 30, 34, 40, 48, 60] ∧
      ∀ r ∈ [5, 6, 7, 8, 9, 10, 11, 12, 13, 14, 15, 16, 17, 18, 20, 21, 24, 26, 30, 34, 40, 48, 60],
        wpm ≤ r → back ≤ r)

/-! ## The whole machine -/

/-- The invariants of R47, with R22, R25 and R27, are kept by every step: of the machine with any legal parameters, and of
this machine. R22's maximum stands with `UNITS_DOT` in it, which is the same number in this machine. -/
def Obligations.InvariantKeptByEveryStep : Prop :=
  (∀ p : Config.Params, p.Legal → ∀ s t : State.Of p, s.Inv → stepOf p s = .next t → t.Inv) ∧
  (∀ s t : State, s.Inv → step s = .next t → t.Inv)

/-- The state after reset meets the invariants of R47 (R48): of the machine with any legal parameters, and of this machine.
The legal values of the configuration registers are the model's choice (log 5). -/
def Obligations.InvariantHoldsAtReset : Prop :=
  (∀ p : Config.Params, p.Legal → (State.Of.reset p).Inv) ∧ State.reset.Inv

/-- From a state that meets the invariants no step stops, of the machine with any legal parameters and of this machine:
every operation is total on every reachable state (R319). -/
def Obligations.InvariantStatesNeverStop : Prop :=
  (∀ p : Config.Params, p.Legal → ∀ s : State.Of p, s.Inv → ∃ t, stepOf p s = .next t) ∧
  (∀ s : State, s.Inv → ∃ t, step s = .next t)

/-- R47 (g), R133: a successful RELOAD_END makes the chip image agree with `keyed` and `poweredDown`, and every operation
keeps the agreement. -/
def Obligations.ChipImageAgreesAfterReload : Prop :=
  (∀ (r : Resp) (s t : State), s.mode = .config → exec (.reloadEnd r) s = .next t → t.mode = .run → t.ImageAgrees) ∧
  (∀ (i : Instr) (s t : State), s.ImageAgrees → exec i s = .next t → t.ImageAgrees)

/-- R74: while the reader holds the bus no operation but its release drives it. -/
def Obligations.ClaimedBusIsNotDriven : Prop :=
  ∀ (i : Instr) (s t : State), i.isOperation = true → (∀ r, i ≠ .readerRelease r) → s.claimedByReader = true →
    exec i s = .next t →
    t.claimedByReader = true ∧ t.synBuf = s.synBuf ∧ t.synAct = s.synAct ∧ t.keyed = s.keyed ∧
      ∀ o ∈ t.out, o.drivesBus = false

/-- R71, R92: the images of the chips change in exactly the order of the records: after an operation they are what the
records make of them. -/
def Obligations.RecordsExplainTheChips : Prop :=
  ∀ (i : Instr) (s t : State), i.isOperation = true → exec i s = .next t → t.chips = s.chips.replay t.out

/-- R63, R286: every value CORE passes to a chip is in the range of its target. -/
def Obligations.RecordsCarryLegalValues : Prop :=
  ∀ (i : Instr) (s t : State), s.Inv → i.isOperation = true → exec i s = .next t →
    ∀ o ∈ t.out, o.legal Config.params

/-- R91: LOCKED excludes every other flag and every effect, and ILLEGAL is set by no operation. -/
def Obligations.LockedAndIllegalAreExclusive : Prop :=
  ∀ (i : Instr) (s t : State), i.isOperation = true → exec i s = .next t →
    Flag.illegal.isSet t.flags = false ∧
    (Flag.locked.isSet t.flags = true →
      t.flags = Flag.locked.mask ∧ t.out = [] ∧ t.coreState = s.coreState)

/-- No operation reads the flags (R45), the records (R20, R92) or the response bits (R14) of an earlier one. That the three
stand in State at all is the model's choice (DESIGN CHOICE, log 2, log 3). -/
def Obligations.EarlierResultsAreNotRead : Prop :=
  ∀ (i : Instr) (s : State) (r : Resp) (f : BitVec 8) (o : List OutRecord), i.isOperation = true →
    exec i (s.answered r f o) = exec i s

/-- R31, R133: `keyed` changes only in the operations that reach a key primitive or write it, and each change comes with
the matching write of KEY. -/
def Obligations.KeyedChangesWithItsRecord : Prop :=
  ∀ (i : Instr) (s t : State), i.isOperation = true → exec i s = .next t → t.keyed ≠ s.keyed →
    mayKey i = true ∧ .synW .key (if t.keyed then 1 else 0) ∈ t.out ∧ (t.keyed = true → s.poweredDown = false)

/-- R41, R42, R73: in RUN mode no operation writes a configuration register or a ROM entry. -/
def Obligations.ConfigurationIsReadOnlyInRun : Prop :=
  ∀ (i : Instr) (s t : State), s.mode = .run → exec i s = .next t →
    t.cfgWpm = s.cfgWpm ∧ t.cfgMorseEn = s.cfgMorseEn ∧ t.cfgProgLen = s.cfgProgLen ∧ t.cfgModEn = s.cfgModEn ∧
    t.cfgFreq = s.cfgFreq ∧ t.cfgAmpPct = s.cfgAmpPct ∧ t.cfgFoxNumber = s.cfgFoxNumber ∧
    t.cfgFoxMax = s.cfgFoxMax ∧ t.cfgTransmitMinute = s.cfgTransmitMinute ∧ t.cfgWinStart = s.cfgWinStart ∧
    t.cfgWinStop = s.cfgWinStop ∧ t.prog = s.prog ∧ t.modTab = s.modTab

/-- R49, R26, R27: each working register of the engines, the scheduler and the arbiter is written by its owner's operations
only, and by RELOAD_END: `resetFlag` and `morseRunning` by the operations that update the gate or stop the engine,
`deferred` by those that can be denied a key change and by the drain. `keyed` is KeyedChangesWithItsRecord's, `mode`
ModesAcceptAndLock's. -/
def Obligations.WorkingRegistersHaveOwners : Prop :=
  ∀ (i : Instr) (s t : State), i.isOperation = true → exec i s = .next t → (∀ r, i ≠ .reloadEnd r) →
    ((∀ r, i ≠ .tickMorse r) → t.symbolIndex = s.symbolIndex ∧ t.unitsRemaining = s.unitsRemaining ∧
      t.curIsMark = s.curIsMark ∧ t.rateCount = s.rateCount) ∧
    ((∀ r, i ≠ .tickMod r) → t.modPhase = s.modPhase ∧ t.modIndex = s.modIndex ∧ t.busAvailable = s.busAvailable) ∧
    ((∀ r d, i ≠ .evalWindow r d) → t.winState = s.winState ∧ t.winAlarmRetry = s.winAlarmRetry ∧
      t.rtcAlarm1 = s.rtcAlarm1) ∧
    ((∀ r, i ≠ .tickMorse r) → (∀ r d, i ≠ .evalWindow r d) → (∀ r m, i ≠ .evalSlot r m) →
      (∀ r b, i ≠ .ccEnable r b) → (∀ r, i ≠ .ccDisable r) → t.resetFlag = s.resetFlag) ∧
    ((∀ r d, i ≠ .evalWindow r d) → (∀ r m, i ≠ .evalSlot r m) → (∀ r b, i ≠ .ccEnable r b) →
      (∀ r, i ≠ .ccDisable r) → t.morseRunning = s.morseRunning) ∧
    ((∀ r, i ≠ .synKeyon r) → (∀ r, i ≠ .synKeyoff r) → (∀ r, i ≠ .tickMorse r) → (∀ r d, i ≠ .evalWindow r d) →
      (∀ r m, i ≠ .evalSlot r m) → (∀ r, i ≠ .readerRelease r) → t.deferred = s.deferred) ∧
    ((∀ r m, i ≠ .evalSlot r m) → t.withinSlot = s.withinSlot ∧ t.rtcAlarm2 = s.rtcAlarm2) ∧
    ((∀ r, i ≠ .readerClaim r) → (∀ r, i ≠ .readerRelease r) → t.claimedByReader = s.claimedByReader) ∧
    ((∀ r b, i ≠ .ccEnable r b) → (∀ r, i ≠ .ccDisable r) → t.ccBand = s.ccBand) ∧
    ((∀ r, i ≠ .synPwrdown r) → (∀ r, i ≠ .synPwrup r) → t.poweredDown = s.poweredDown) ∧
    t.morseUnit = s.morseUnit ∧ t.modulationEnabled = s.modulationEnabled
end

