-- ==== Sys2Proof/Laws/Encoding.lean ====
section
/-! SUPPORT. The layout of an encoded word: the payload stays below bit 54, so the opcode, the response bits and every field
of a format are where spec/30_encoding.md R80 and R81 put them. -/

namespace Sys2Proof

/-- Format D fills 36 bits (R81). -/
theorem DateTime.payload_lt (d : DateTime) : d.payload < 2 ^ 36 := by
  have h0 := d.second.isLt
  have h1 := d.minute.isLt
  have h2 := d.hour.isLt
  have h3 := d.date.isLt
  have h4 := d.month.isLt
  have h5 := d.year.isLt
  have h6 := d.weekday.isLt
  unfold DateTime.payload
  omega

/-- No format reaches the response bits (R80, R81). -/
theorem Instr.payload_lt (i : Instr) : i.payload < 2 ^ 54 := by
  suffices h : i.payload < 2 ^ 40 from Nat.lt_of_lt_of_le h (by decide)
  cases i with
  | evalWindow r d => exact Nat.lt_of_lt_of_le d.payload_lt (by decide)
  | cfgWinStart r d => exact Nat.lt_of_lt_of_le d.payload_lt (by decide)
  | cfgWinStop r d => exact Nat.lt_of_lt_of_le d.payload_lt (by decide)
  | evalSlot r m => simp only [payload]; omega
  | synSetfreq r hz => simp only [payload]; omega
  | synSetamp r v => simp only [payload]; omega
  | ccEnable r b => simp only [payload]; omega
  | cfgWpm r v => simp only [payload]; omega
  | cfgMorseEn r en => exact Nat.lt_of_lt_of_le (Bool.toNat_lt en) (by decide)
  | cfgModEn r en => exact Nat.lt_of_lt_of_le (Bool.toNat_lt en) (by decide)
  | cfgProgLen r len => simp only [payload]; omega
  | cfgProgSym r index sym => simp only [payload]; omega
  | cfgModTab r index word => simp only [payload]; omega
  | cfgFreq r hz => simp only [payload]; omega
  | cfgAmp r v => simp only [payload]; omega
  | cfgSlot r n m t => simp only [payload]; omega
  | _ => exact Nat.two_pow_pos 40

/-- The ten bits above the payload: the two response bits and the opcode (R80). -/
def Instr.header (i : Instr) : Nat := i.resp.rtcOk.toNat + i.resp.synOk.toNat * 2 + i.opcode.toNat * 4

/-- The word of an operation as an integer: payload and header, and nothing wraps. -/
theorem encode_toNat (i : Instr) : (encode i).toNat = i.payload + 2 ^ 54 * i.header := by
  have hp := i.payload_lt
  have hr := Bool.toNat_lt i.resp.rtcOk
  have hs := Bool.toNat_lt i.resp.synOk
  have ho := i.opcode.isLt
  have hsum : i.payload + i.resp.rtcOk.toNat * 2 ^ 54 + i.resp.synOk.toNat * 2 ^ 55 + i.opcode.toNat * 2 ^ 56
      = i.payload + 2 ^ 54 * i.header := by
    unfold Instr.header; ring
  unfold encode
  rw [hsum, BitVec.toNat_ofNat, Nat.mod_eq_of_lt]
  have hh : i.header ≤ 1023 := by unfold Instr.header; omega
  calc i.payload + 2 ^ 54 * i.header < 2 ^ 54 + 2 ^ 54 * 1023 := by
        exact Nat.add_lt_add_of_lt_of_le hp (Nat.mul_le_mul_left _ hh)
    _ = 2 ^ 64 := by norm_num

/-- What stands at or above a bound, seen past a number below the bound. -/
theorem field_above (p q k m : Nat) (h : p < 2 ^ k) : (p + 2 ^ k * q) / 2 ^ (k + m) = q / 2 ^ m := by
  rw [Nat.pow_add, ← Nat.div_div_eq_div_mul, Nat.add_mul_div_left _ _ (Nat.two_pow_pos k), Nat.div_eq_of_lt h,
    Nat.zero_add]

/-- A bit of an encoded word above the payload is a bit of the header. -/
theorem getLsbD_encode (i : Instr) (m : Nat) : (encode i).getLsbD (54 + m) = decide (i.header / 2 ^ m % 2 = 1) := by
  rw [← BitVec.testBit_toNat, Nat.testBit_eq_decide_div_mod_eq, encode_toNat, field_above _ _ _ _ i.payload_lt]

/-- The opcode is where R80 puts it. -/
theorem opcodeOf_encode (i : Instr) : opcodeOf (encode i) = i.opcode := by
  have hr := Bool.toNat_lt i.resp.rtcOk
  have hs := Bool.toNat_lt i.resp.synOk
  have ho := i.opcode.isLt
  have hq : (encode i).toNat / 2 ^ (54 + 2) = i.header / 2 ^ 2 := by
    rw [encode_toNat, field_above _ _ _ _ i.payload_lt]
  apply BitVec.eq_of_toNat_eq
  rw [opcodeOf, BitVec.extractLsb'_toNat, Nat.shiftRight_eq_div_pow]
  rw [hq, Instr.header]
  omega

/-- The response bits are where R80 puts them. -/
theorem respOf_encode (i : Instr) : respOf (encode i) = i.resp := by
  have h0 := getLsbD_encode i 0
  have h1 := getLsbD_encode i 1
  unfold respOf
  rw [h0, h1]
  unfold Instr.header
  rcases i.resp with ⟨a, b⟩
  cases a <;> cases b <;> simp only [Bool.toNat_true, Bool.toNat_false, Resp.mk.injEq, decide_eq_true_eq,
    decide_eq_false_iff_not] <;> omega

/-- A bit field below a multiple of a power of two does not see the multiple. -/
theorem field_below (p q k n m : Nat) : (p + 2 ^ (k + n + m) * q) / 2 ^ k % 2 ^ n = p / 2 ^ k % 2 ^ n := by
  rw [Nat.pow_add, Nat.pow_add, Nat.mul_assoc, Nat.mul_assoc, Nat.add_mul_div_left _ _ (Nat.two_pow_pos k),
    Nat.add_mul_mod_self_left]

/-- A field of a format is read from the payload alone (R81, R84). -/
theorem extract_encode (i : Instr) (k n : Nat) (h : k + n ≤ 54) :
    (encode i).extractLsb' k n = BitVec.ofNat n (i.payload / 2 ^ k) := by
  obtain ⟨m, hm⟩ := Nat.exists_eq_add_of_le h
  apply BitVec.eq_of_toNat_eq
  rw [BitVec.extractLsb'_toNat, BitVec.toNat_ofNat, Nat.shiftRight_eq_div_pow, encode_toNat, hm, field_below]

/-- Bit 0 of a word, read from the payload. -/
theorem getLsbD_zero_encode (i : Instr) : (encode i).getLsbD 0 = decide (i.payload % 2 = 1) := by
  rw [← BitVec.testBit_toNat, Nat.testBit_eq_decide_div_mod_eq, encode_toNat, Nat.pow_zero, Nat.div_one,
    show (2 : Nat) ^ 54 = 2 * 2 ^ 53 from rfl, Nat.mul_assoc, Nat.add_mul_mod_self_left]

/-- The code of a symbol is read back (R88). -/
theorem symbolOfCode_code (sym : Symbol) : symbolOfCode sym.code = sym := by cases sym <;> rfl

/-- Every code is the code of its symbol (R88). -/
theorem code_symbolOfCode (c : BitVec 2) : (symbolOfCode c).code = c := by revert c; decide

end Sys2Proof
end

