-- ==== Sys2Proof/Laws/Operands.lean ====
section
/-! SUPPORT. What the range checks of Operands.lean say, for any parameters of spec/00_scope.md R9 and with the numbers of the
machine's record; the constraints R9 puts on that record; the rate; the order of DateTimes. -/

namespace Sys2Proof.Config

/-! The literals of R9 in the machine's record (log 8). -/

@[simp] theorem params_wpmConst : params.wpmConst = 240 := rfl
@[simp] theorem params_wpmMin : params.wpmMin = 5 := rfl
@[simp] theorem params_wpmMax : params.wpmMax = 60 := rfl
@[simp] theorem params_wpmDefault : params.wpmDefault = 10 := rfl
@[simp] theorem params_unitsDot : params.unitsDot = 1 := rfl
@[simp] theorem params_unitsDash : params.unitsDash = 3 := rfl
@[simp] theorem params_unitsTrail : params.unitsTrail = 1 := rfl
@[simp] theorem params_unitsLsp : params.unitsLsp = 3 := rfl
@[simp] theorem params_unitsWsp : params.unitsWsp = 7 := rfl
@[simp] theorem params_foxNumMax : params.foxNumMax = 5 := rfl
@[simp] theorem params_foxMaxMin : params.foxMaxMin = 1 := rfl
@[simp] theorem params_foxMaxMax : params.foxMaxMax = 5 := rfl
@[simp] theorem params_ampPctMax : params.ampPctMax = 100 := rfl
@[simp] theorem params_yearMax : params.yearMax = 99 := rfl

/-! The two sizes are no simp lemmas: they stand in the types of the ROMs, which a rewrite must leave as they are. -/

theorem params_modTableLen : params.modTableLen = 10 := rfl
theorem params_progMax : params.progMax = 64 := rfl

/-- Every choice of the free values meets the constraints R9 puts on the parameters (log 7). -/
theorem params_legal : params.Legal where
  const_pos := by simp
  wpm_one := by simp
  wpm_const := by simp
  default_range := by simp
  dot_one := by simp
  dash_one := by simp
  trail_one := by simp
  lsp_one := by simp
  wsp_one := by simp
  table_one := by rw [params_modTableLen]; decide
  cycle_two := by simp only [params]; omega
  yield_one := by simp only [params]; omega
  yield_short := by
    have := Nat.mod_lt freeModYield (y := 1 + freeModCycle % (2 ^ 16 - 1)) (by omega)
    simp only [params]; omega
  fox_range := by simp
  fox_divides := by
    intro m h1 h2
    have hm : m = 1 ∨ m = 2 ∨ m = 3 ∨ m = 4 ∨ m = 5 := by
      simp only [params_foxMaxMin, params_foxMaxMax] at h1 h2; omega
    rcases hm with rfl | rfl | rfl | rfl | rfl <;> decide
  freq_range := by
    simp only [params]
    split <;> bv_omega
  amp_range := by
    intro pct _
    simp only [params]
    split <;> bv_omega
  prog_range := by rw [params_progMax]; decide
  mod_faster := by simp only [params]; omega
  default_width := by simp
  fox_width := by simp
  unit_width := by simp
  units_width := by simp
  table_width := by rw [params_modTableLen]; decide
  cycle_width := by
    have := Nat.mod_lt freeModCycle (y := 2 ^ 16 - 1) (by decide)
    simp only [params]; omega

end Sys2Proof.Config

namespace Sys2Proof.Machine

/-- R248. -/
theorem wpmInRange_iff (p : Config.Params) (value : BitVec 8) :
    wpmInRange p value = true ↔ p.wpmMin ≤ value.toNat ∧ value.toNat ≤ p.wpmMax := by
  simp [wpmInRange]

/-- R251. -/
theorem progLenInRange_iff (p : Config.Params) (len : BitVec 16) :
    progLenInRange p len = true ↔ 1 ≤ len.toNat ∧ len.toNat ≤ p.progMax := by
  simp [progLenInRange]

/-- R126, R255. -/
theorem freqInRange_iff (p : Config.Params) (hz : Word) :
    freqInRange p hz = true ↔ p.freqMin ≤ hz ∧ hz ≤ p.freqMax := by
  simp [freqInRange]

/-- R127, R256. -/
theorem ampPctInRange_iff (p : Config.Params) (value : BitVec 8) :
    ampPctInRange p value = true ↔ value.toNat ≤ p.ampPctMax := by
  simp [ampPctInRange]

/-- R257. -/
theorem slotInRange_iff (p : Config.Params) (n m t : BitVec 4) :
    slotInRange p n m t = true ↔
      n.toNat ≤ p.foxNumMax ∧ p.foxMaxMin ≤ m.toNat ∧ m.toNat ≤ p.foxMaxMax ∧ t.toNat < m.toNat := by
  simp [slotInRange, and_assoc]

/-! The same with the numbers of the machine's record. -/

theorem wpmInRange_params (value : BitVec 8) :
    wpmInRange Config.params value = true ↔ 5 ≤ value.toNat ∧ value.toNat ≤ 60 := wpmInRange_iff _ _

theorem progLenInRange_params (len : BitVec 16) :
    progLenInRange Config.params len = true ↔ 1 ≤ len.toNat ∧ len.toNat ≤ 64 := progLenInRange_iff _ _

theorem ampPctInRange_params (value : BitVec 8) : ampPctInRange Config.params value = true ↔ value.toNat ≤ 100 :=
  ampPctInRange_iff _ _

theorem slotInRange_params (n m t : BitVec 4) :
    slotInRange Config.params n m t = true ↔ n.toNat ≤ 5 ∧ 1 ≤ m.toNat ∧ m.toNat ≤ 5 ∧ t.toNat < m.toNat :=
  slotInRange_iff _ _ _ _

/-! ## The rate (R167, R168) -/

theorem convertToUnit_eq_some {p : Config.Params} {wpm unit : Nat} :
    convertToUnit p wpm = some unit ↔ wpm ≠ 0 ∧ p.wpmConst / wpm = unit := by
  unfold convertToUnit
  split <;> simp_all

theorem convertToWpm_eq_some {p : Config.Params} {unit wpm : Nat} :
    convertToWpm p unit = some wpm ↔ unit ≠ 0 ∧ p.wpmConst / unit = wpm := by
  unfold convertToWpm
  split <;> simp_all

/-- The bands of CC_ENABLE (R130): 0 and 3 name none. -/
theorem bandOfOperand_cases (b : BitVec 2) :
    ((b = 0 ∨ b = 3) ∧ bandOfOperand b = none) ∨ (b = 1 ∧ bandOfOperand b = some .band2m) ∨
      (b = 2 ∧ bandOfOperand b = some .band80m) := by
  revert b; decide

end Sys2Proof.Machine

namespace Sys2Proof

/-- R15. -/
theorem DateTime.legal_iff (d : DateTime) (p : Config.Params) :
    d.legal p = true ↔ d.second.toNat ≤ 59 ∧ d.minute.toNat ≤ 59 ∧ d.hour.toNat ≤ 23 ∧ 1 ≤ d.date.toNat ∧
      d.date.toNat ≤ 31 ∧ 1 ≤ d.month.toNat ∧ d.month.toNat ≤ 12 ∧ d.year.toNat ≤ p.yearMax ∧ 1 ≤ d.weekday.toNat ∧
      d.weekday.toNat ≤ 7 := by
  simp [DateTime.legal, and_assoc]

/-- R15 with the number of the machine's record. -/
theorem DateTime.legal_params (d : DateTime) :
    d.legal Config.params = true ↔ d.second.toNat ≤ 59 ∧ d.minute.toNat ≤ 59 ∧ d.hour.toNat ≤ 23 ∧
      1 ≤ d.date.toNat ∧ d.date.toNat ≤ 31 ∧ 1 ≤ d.month.toNat ∧ d.month.toNat ≤ 12 ∧ d.year.toNat ≤ 99 ∧
      1 ≤ d.weekday.toNat ∧ d.weekday.toNat ≤ 7 := d.legal_iff _

/-- The order of R16 on lists of one length is the order of the first difference. -/
theorem lexLess_cons (a b : Nat) (as bs : List Nat) :
    lexLess (a :: as) (b :: bs) = true ↔ a < b ∨ (a = b ∧ lexLess as bs = true) := by
  simp [lexLess]

end Sys2Proof
end

