-- ==== Sys2Proof/Laws/State.lean ====
section
/-! SUPPORT. For each named update of the state, what it does to each field (true by rfl), so that no later proof unfolds a
record update. -/

namespace Sys2Proof.Machine

variable {p : Config.Params}

section

/-! ## `State.Of.raise` -/

@[simp] theorem raise_symbolIndex (f : Flag) (s : State.Of p) : (s.raise f).symbolIndex = s.symbolIndex := rfl
@[simp] theorem raise_unitsRemaining (f : Flag) (s : State.Of p) : (s.raise f).unitsRemaining = s.unitsRemaining := rfl
@[simp] theorem raise_curIsMark (f : Flag) (s : State.Of p) : (s.raise f).curIsMark = s.curIsMark := rfl
@[simp] theorem raise_rateCount (f : Flag) (s : State.Of p) : (s.raise f).rateCount = s.rateCount := rfl
@[simp] theorem raise_morseUnit (f : Flag) (s : State.Of p) : (s.raise f).morseUnit = s.morseUnit := rfl
@[simp] theorem raise_resetFlag (f : Flag) (s : State.Of p) : (s.raise f).resetFlag = s.resetFlag := rfl
@[simp] theorem raise_morseRunning (f : Flag) (s : State.Of p) : (s.raise f).morseRunning = s.morseRunning := rfl
@[simp] theorem raise_modPhase (f : Flag) (s : State.Of p) : (s.raise f).modPhase = s.modPhase := rfl
@[simp] theorem raise_modIndex (f : Flag) (s : State.Of p) : (s.raise f).modIndex = s.modIndex := rfl
@[simp] theorem raise_busAvailable (f : Flag) (s : State.Of p) : (s.raise f).busAvailable = s.busAvailable := rfl
@[simp] theorem raise_keyed (f : Flag) (s : State.Of p) : (s.raise f).keyed = s.keyed := rfl
@[simp] theorem raise_modulationEnabled (f : Flag) (s : State.Of p) : (s.raise f).modulationEnabled = s.modulationEnabled := rfl
@[simp] theorem raise_ccBand (f : Flag) (s : State.Of p) : (s.raise f).ccBand = s.ccBand := rfl
@[simp] theorem raise_poweredDown (f : Flag) (s : State.Of p) : (s.raise f).poweredDown = s.poweredDown := rfl
@[simp] theorem raise_claimedByReader (f : Flag) (s : State.Of p) : (s.raise f).claimedByReader = s.claimedByReader := rfl
@[simp] theorem raise_deferred (f : Flag) (s : State.Of p) : (s.raise f).deferred = s.deferred := rfl
@[simp] theorem raise_winState (f : Flag) (s : State.Of p) : (s.raise f).winState = s.winState := rfl
@[simp] theorem raise_withinSlot (f : Flag) (s : State.Of p) : (s.raise f).withinSlot = s.withinSlot := rfl
@[simp] theorem raise_winAlarmRetry (f : Flag) (s : State.Of p) : (s.raise f).winAlarmRetry = s.winAlarmRetry := rfl
@[simp] theorem raise_mode (f : Flag) (s : State.Of p) : (s.raise f).mode = s.mode := rfl
@[simp] theorem raise_cfgWpm (f : Flag) (s : State.Of p) : (s.raise f).cfgWpm = s.cfgWpm := rfl
@[simp] theorem raise_cfgMorseEn (f : Flag) (s : State.Of p) : (s.raise f).cfgMorseEn = s.cfgMorseEn := rfl
@[simp] theorem raise_cfgProgLen (f : Flag) (s : State.Of p) : (s.raise f).cfgProgLen = s.cfgProgLen := rfl
@[simp] theorem raise_cfgModEn (f : Flag) (s : State.Of p) : (s.raise f).cfgModEn = s.cfgModEn := rfl
@[simp] theorem raise_cfgFreq (f : Flag) (s : State.Of p) : (s.raise f).cfgFreq = s.cfgFreq := rfl
@[simp] theorem raise_cfgAmpPct (f : Flag) (s : State.Of p) : (s.raise f).cfgAmpPct = s.cfgAmpPct := rfl
@[simp] theorem raise_cfgFoxNumber (f : Flag) (s : State.Of p) : (s.raise f).cfgFoxNumber = s.cfgFoxNumber := rfl
@[simp] theorem raise_cfgFoxMax (f : Flag) (s : State.Of p) : (s.raise f).cfgFoxMax = s.cfgFoxMax := rfl
@[simp] theorem raise_cfgTransmitMinute (f : Flag) (s : State.Of p) : (s.raise f).cfgTransmitMinute = s.cfgTransmitMinute := rfl
@[simp] theorem raise_cfgWinStart (f : Flag) (s : State.Of p) : (s.raise f).cfgWinStart = s.cfgWinStart := rfl
@[simp] theorem raise_cfgWinStop (f : Flag) (s : State.Of p) : (s.raise f).cfgWinStop = s.cfgWinStop := rfl
@[simp] theorem raise_prog (f : Flag) (s : State.Of p) : (s.raise f).prog = s.prog := rfl
@[simp] theorem raise_modTab (f : Flag) (s : State.Of p) : (s.raise f).modTab = s.modTab := rfl
@[simp] theorem raise_synBuf (f : Flag) (s : State.Of p) : (s.raise f).synBuf = s.synBuf := rfl
@[simp] theorem raise_synAct (f : Flag) (s : State.Of p) : (s.raise f).synAct = s.synAct := rfl
@[simp] theorem raise_rtcAlarm1 (f : Flag) (s : State.Of p) : (s.raise f).rtcAlarm1 = s.rtcAlarm1 := rfl
@[simp] theorem raise_rtcAlarm2 (f : Flag) (s : State.Of p) : (s.raise f).rtcAlarm2 = s.rtcAlarm2 := rfl
@[simp] theorem raise_stimulus (f : Flag) (s : State.Of p) : (s.raise f).stimulus = s.stimulus := rfl
@[simp] theorem raise_resp (f : Flag) (s : State.Of p) : (s.raise f).resp = s.resp := rfl
@[simp] theorem raise_flags (f : Flag) (s : State.Of p) : (s.raise f).flags = s.flags ||| f.mask := rfl
@[simp] theorem raise_out (f : Flag) (s : State.Of p) : (s.raise f).out = s.out := rfl

/-! ## `State.Of.emit` -/

@[simp] theorem emit_symbolIndex (o : OutRecord) (s : State.Of p) : (s.emit o).symbolIndex = s.symbolIndex := rfl
@[simp] theorem emit_unitsRemaining (o : OutRecord) (s : State.Of p) : (s.emit o).unitsRemaining = s.unitsRemaining := rfl
@[simp] theorem emit_curIsMark (o : OutRecord) (s : State.Of p) : (s.emit o).curIsMark = s.curIsMark := rfl
@[simp] theorem emit_rateCount (o : OutRecord) (s : State.Of p) : (s.emit o).rateCount = s.rateCount := rfl
@[simp] theorem emit_morseUnit (o : OutRecord) (s : State.Of p) : (s.emit o).morseUnit = s.morseUnit := rfl
@[simp] theorem emit_resetFlag (o : OutRecord) (s : State.Of p) : (s.emit o).resetFlag = s.resetFlag := rfl
@[simp] theorem emit_morseRunning (o : OutRecord) (s : State.Of p) : (s.emit o).morseRunning = s.morseRunning := rfl
@[simp] theorem emit_modPhase (o : OutRecord) (s : State.Of p) : (s.emit o).modPhase = s.modPhase := rfl
@[simp] theorem emit_modIndex (o : OutRecord) (s : State.Of p) : (s.emit o).modIndex = s.modIndex := rfl
@[simp] theorem emit_busAvailable (o : OutRecord) (s : State.Of p) : (s.emit o).busAvailable = s.busAvailable := rfl
@[simp] theorem emit_keyed (o : OutRecord) (s : State.Of p) : (s.emit o).keyed = s.keyed := rfl
@[simp] theorem emit_modulationEnabled (o : OutRecord) (s : State.Of p) : (s.emit o).modulationEnabled = s.modulationEnabled := rfl
@[simp] theorem emit_ccBand (o : OutRecord) (s : State.Of p) : (s.emit o).ccBand = s.ccBand := rfl
@[simp] theorem emit_poweredDown (o : OutRecord) (s : State.Of p) : (s.emit o).poweredDown = s.poweredDown := rfl
@[simp] theorem emit_claimedByReader (o : OutRecord) (s : State.Of p) : (s.emit o).claimedByReader = s.claimedByReader := rfl
@[simp] theorem emit_deferred (o : OutRecord) (s : State.Of p) : (s.emit o).deferred = s.deferred := rfl
@[simp] theorem emit_winState (o : OutRecord) (s : State.Of p) : (s.emit o).winState = s.winState := rfl
@[simp] theorem emit_withinSlot (o : OutRecord) (s : State.Of p) : (s.emit o).withinSlot = s.withinSlot := rfl
@[simp] theorem emit_winAlarmRetry (o : OutRecord) (s : State.Of p) : (s.emit o).winAlarmRetry = s.winAlarmRetry := rfl
@[simp] theorem emit_mode (o : OutRecord) (s : State.Of p) : (s.emit o).mode = s.mode := rfl
@[simp] theorem emit_cfgWpm (o : OutRecord) (s : State.Of p) : (s.emit o).cfgWpm = s.cfgWpm := rfl
@[simp] theorem emit_cfgMorseEn (o : OutRecord) (s : State.Of p) : (s.emit o).cfgMorseEn = s.cfgMorseEn := rfl
@[simp] theorem emit_cfgProgLen (o : OutRecord) (s : State.Of p) : (s.emit o).cfgProgLen = s.cfgProgLen := rfl
@[simp] theorem emit_cfgModEn (o : OutRecord) (s : State.Of p) : (s.emit o).cfgModEn = s.cfgModEn := rfl
@[simp] theorem emit_cfgFreq (o : OutRecord) (s : State.Of p) : (s.emit o).cfgFreq = s.cfgFreq := rfl
@[simp] theorem emit_cfgAmpPct (o : OutRecord) (s : State.Of p) : (s.emit o).cfgAmpPct = s.cfgAmpPct := rfl
@[simp] theorem emit_cfgFoxNumber (o : OutRecord) (s : State.Of p) : (s.emit o).cfgFoxNumber = s.cfgFoxNumber := rfl
@[simp] theorem emit_cfgFoxMax (o : OutRecord) (s : State.Of p) : (s.emit o).cfgFoxMax = s.cfgFoxMax := rfl
@[simp] theorem emit_cfgTransmitMinute (o : OutRecord) (s : State.Of p) : (s.emit o).cfgTransmitMinute = s.cfgTransmitMinute := rfl
@[simp] theorem emit_cfgWinStart (o : OutRecord) (s : State.Of p) : (s.emit o).cfgWinStart = s.cfgWinStart := rfl
@[simp] theorem emit_cfgWinStop (o : OutRecord) (s : State.Of p) : (s.emit o).cfgWinStop = s.cfgWinStop := rfl
@[simp] theorem emit_prog (o : OutRecord) (s : State.Of p) : (s.emit o).prog = s.prog := rfl
@[simp] theorem emit_modTab (o : OutRecord) (s : State.Of p) : (s.emit o).modTab = s.modTab := rfl
@[simp] theorem emit_synBuf (o : OutRecord) (s : State.Of p) : (s.emit o).synBuf = s.synBuf := rfl
@[simp] theorem emit_synAct (o : OutRecord) (s : State.Of p) : (s.emit o).synAct = s.synAct := rfl
@[simp] theorem emit_rtcAlarm1 (o : OutRecord) (s : State.Of p) : (s.emit o).rtcAlarm1 = s.rtcAlarm1 := rfl
@[simp] theorem emit_rtcAlarm2 (o : OutRecord) (s : State.Of p) : (s.emit o).rtcAlarm2 = s.rtcAlarm2 := rfl
@[simp] theorem emit_stimulus (o : OutRecord) (s : State.Of p) : (s.emit o).stimulus = s.stimulus := rfl
@[simp] theorem emit_resp (o : OutRecord) (s : State.Of p) : (s.emit o).resp = s.resp := rfl
@[simp] theorem emit_flags (o : OutRecord) (s : State.Of p) : (s.emit o).flags = s.flags := rfl
@[simp] theorem emit_out (o : OutRecord) (s : State.Of p) : (s.emit o).out = s.out ++ [o] := rfl

/-! ## `State.Of.startOp` -/

@[simp] theorem startOp_symbolIndex (r : Resp) (s : State.Of p) : (s.startOp r).symbolIndex = s.symbolIndex := rfl
@[simp] theorem startOp_unitsRemaining (r : Resp) (s : State.Of p) : (s.startOp r).unitsRemaining = s.unitsRemaining := rfl
@[simp] theorem startOp_curIsMark (r : Resp) (s : State.Of p) : (s.startOp r).curIsMark = s.curIsMark := rfl
@[simp] theorem startOp_rateCount (r : Resp) (s : State.Of p) : (s.startOp r).rateCount = s.rateCount := rfl
@[simp] theorem startOp_morseUnit (r : Resp) (s : State.Of p) : (s.startOp r).morseUnit = s.morseUnit := rfl
@[simp] theorem startOp_resetFlag (r : Resp) (s : State.Of p) : (s.startOp r).resetFlag = s.resetFlag := rfl
@[simp] theorem startOp_morseRunning (r : Resp) (s : State.Of p) : (s.startOp r).morseRunning = s.morseRunning := rfl
@[simp] theorem startOp_modPhase (r : Resp) (s : State.Of p) : (s.startOp r).modPhase = s.modPhase := rfl
@[simp] theorem startOp_modIndex (r : Resp) (s : State.Of p) : (s.startOp r).modIndex = s.modIndex := rfl
@[simp] theorem startOp_busAvailable (r : Resp) (s : State.Of p) : (s.startOp r).busAvailable = s.busAvailable := rfl
@[simp] theorem startOp_keyed (r : Resp) (s : State.Of p) : (s.startOp r).keyed = s.keyed := rfl
@[simp] theorem startOp_modulationEnabled (r : Resp) (s : State.Of p) : (s.startOp r).modulationEnabled = s.modulationEnabled := rfl
@[simp] theorem startOp_ccBand (r : Resp) (s : State.Of p) : (s.startOp r).ccBand = s.ccBand := rfl
@[simp] theorem startOp_poweredDown (r : Resp) (s : State.Of p) : (s.startOp r).poweredDown = s.poweredDown := rfl
@[simp] theorem startOp_claimedByReader (r : Resp) (s : State.Of p) : (s.startOp r).claimedByReader = s.claimedByReader := rfl
@[simp] theorem startOp_deferred (r : Resp) (s : State.Of p) : (s.startOp r).deferred = s.deferred := rfl
@[simp] theorem startOp_winState (r : Resp) (s : State.Of p) : (s.startOp r).winState = s.winState := rfl
@[simp] theorem startOp_withinSlot (r : Resp) (s : State.Of p) : (s.startOp r).withinSlot = s.withinSlot := rfl
@[simp] theorem startOp_winAlarmRetry (r : Resp) (s : State.Of p) : (s.startOp r).winAlarmRetry = s.winAlarmRetry := rfl
@[simp] theorem startOp_mode (r : Resp) (s : State.Of p) : (s.startOp r).mode = s.mode := rfl
@[simp] theorem startOp_cfgWpm (r : Resp) (s : State.Of p) : (s.startOp r).cfgWpm = s.cfgWpm := rfl
@[simp] theorem startOp_cfgMorseEn (r : Resp) (s : State.Of p) : (s.startOp r).cfgMorseEn = s.cfgMorseEn := rfl
@[simp] theorem startOp_cfgProgLen (r : Resp) (s : State.Of p) : (s.startOp r).cfgProgLen = s.cfgProgLen := rfl
@[simp] theorem startOp_cfgModEn (r : Resp) (s : State.Of p) : (s.startOp r).cfgModEn = s.cfgModEn := rfl
@[simp] theorem startOp_cfgFreq (r : Resp) (s : State.Of p) : (s.startOp r).cfgFreq = s.cfgFreq := rfl
@[simp] theorem startOp_cfgAmpPct (r : Resp) (s : State.Of p) : (s.startOp r).cfgAmpPct = s.cfgAmpPct := rfl
@[simp] theorem startOp_cfgFoxNumber (r : Resp) (s : State.Of p) : (s.startOp r).cfgFoxNumber = s.cfgFoxNumber := rfl
@[simp] theorem startOp_cfgFoxMax (r : Resp) (s : State.Of p) : (s.startOp r).cfgFoxMax = s.cfgFoxMax := rfl
@[simp] theorem startOp_cfgTransmitMinute (r : Resp) (s : State.Of p) : (s.startOp r).cfgTransmitMinute = s.cfgTransmitMinute := rfl
@[simp] theorem startOp_cfgWinStart (r : Resp) (s : State.Of p) : (s.startOp r).cfgWinStart = s.cfgWinStart := rfl
@[simp] theorem startOp_cfgWinStop (r : Resp) (s : State.Of p) : (s.startOp r).cfgWinStop = s.cfgWinStop := rfl
@[simp] theorem startOp_prog (r : Resp) (s : State.Of p) : (s.startOp r).prog = s.prog := rfl
@[simp] theorem startOp_modTab (r : Resp) (s : State.Of p) : (s.startOp r).modTab = s.modTab := rfl
@[simp] theorem startOp_synBuf (r : Resp) (s : State.Of p) : (s.startOp r).synBuf = s.synBuf := rfl
@[simp] theorem startOp_synAct (r : Resp) (s : State.Of p) : (s.startOp r).synAct = s.synAct := rfl
@[simp] theorem startOp_rtcAlarm1 (r : Resp) (s : State.Of p) : (s.startOp r).rtcAlarm1 = s.rtcAlarm1 := rfl
@[simp] theorem startOp_rtcAlarm2 (r : Resp) (s : State.Of p) : (s.startOp r).rtcAlarm2 = s.rtcAlarm2 := rfl
@[simp] theorem startOp_stimulus (r : Resp) (s : State.Of p) : (s.startOp r).stimulus = s.stimulus := rfl
@[simp] theorem startOp_resp (r : Resp) (s : State.Of p) : (s.startOp r).resp = r := rfl
@[simp] theorem startOp_flags (r : Resp) (s : State.Of p) : (s.startOp r).flags = 0 := rfl
@[simp] theorem startOp_out (r : Resp) (s : State.Of p) : (s.startOp r).out = [] := rfl

/-! ## `State.Of.synTxn` -/

@[simp] theorem synTxn_symbolIndex (q : SynReg) (v : Word) (s : State.Of p) : (s.synTxn q v).symbolIndex = s.symbolIndex := rfl
@[simp] theorem synTxn_unitsRemaining (q : SynReg) (v : Word) (s : State.Of p) : (s.synTxn q v).unitsRemaining = s.unitsRemaining := rfl
@[simp] theorem synTxn_curIsMark (q : SynReg) (v : Word) (s : State.Of p) : (s.synTxn q v).curIsMark = s.curIsMark := rfl
@[simp] theorem synTxn_rateCount (q : SynReg) (v : Word) (s : State.Of p) : (s.synTxn q v).rateCount = s.rateCount := rfl
@[simp] theorem synTxn_morseUnit (q : SynReg) (v : Word) (s : State.Of p) : (s.synTxn q v).morseUnit = s.morseUnit := rfl
@[simp] theorem synTxn_resetFlag (q : SynReg) (v : Word) (s : State.Of p) : (s.synTxn q v).resetFlag = s.resetFlag := rfl
@[simp] theorem synTxn_morseRunning (q : SynReg) (v : Word) (s : State.Of p) : (s.synTxn q v).morseRunning = s.morseRunning := rfl
@[simp] theorem synTxn_modPhase (q : SynReg) (v : Word) (s : State.Of p) : (s.synTxn q v).modPhase = s.modPhase := rfl
@[simp] theorem synTxn_modIndex (q : SynReg) (v : Word) (s : State.Of p) : (s.synTxn q v).modIndex = s.modIndex := rfl
@[simp] theorem synTxn_busAvailable (q : SynReg) (v : Word) (s : State.Of p) : (s.synTxn q v).busAvailable = s.busAvailable := rfl
@[simp] theorem synTxn_keyed (q : SynReg) (v : Word) (s : State.Of p) : (s.synTxn q v).keyed = s.keyed := rfl
@[simp] theorem synTxn_modulationEnabled (q : SynReg) (v : Word) (s : State.Of p) : (s.synTxn q v).modulationEnabled = s.modulationEnabled := rfl
@[simp] theorem synTxn_ccBand (q : SynReg) (v : Word) (s : State.Of p) : (s.synTxn q v).ccBand = s.ccBand := rfl
@[simp] theorem synTxn_poweredDown (q : SynReg) (v : Word) (s : State.Of p) : (s.synTxn q v).poweredDown = s.poweredDown := rfl
@[simp] theorem synTxn_claimedByReader (q : SynReg) (v : Word) (s : State.Of p) : (s.synTxn q v).claimedByReader = s.claimedByReader := rfl
@[simp] theorem synTxn_deferred (q : SynReg) (v : Word) (s : State.Of p) : (s.synTxn q v).deferred = s.deferred := rfl
@[simp] theorem synTxn_winState (q : SynReg) (v : Word) (s : State.Of p) : (s.synTxn q v).winState = s.winState := rfl
@[simp] theorem synTxn_withinSlot (q : SynReg) (v : Word) (s : State.Of p) : (s.synTxn q v).withinSlot = s.withinSlot := rfl
@[simp] theorem synTxn_winAlarmRetry (q : SynReg) (v : Word) (s : State.Of p) : (s.synTxn q v).winAlarmRetry = s.winAlarmRetry := rfl
@[simp] theorem synTxn_mode (q : SynReg) (v : Word) (s : State.Of p) : (s.synTxn q v).mode = s.mode := rfl
@[simp] theorem synTxn_cfgWpm (q : SynReg) (v : Word) (s : State.Of p) : (s.synTxn q v).cfgWpm = s.cfgWpm := rfl
@[simp] theorem synTxn_cfgMorseEn (q : SynReg) (v : Word) (s : State.Of p) : (s.synTxn q v).cfgMorseEn = s.cfgMorseEn := rfl
@[simp] theorem synTxn_cfgProgLen (q : SynReg) (v : Word) (s : State.Of p) : (s.synTxn q v).cfgProgLen = s.cfgProgLen := rfl
@[simp] theorem synTxn_cfgModEn (q : SynReg) (v : Word) (s : State.Of p) : (s.synTxn q v).cfgModEn = s.cfgModEn := rfl
@[simp] theorem synTxn_cfgFreq (q : SynReg) (v : Word) (s : State.Of p) : (s.synTxn q v).cfgFreq = s.cfgFreq := rfl
@[simp] theorem synTxn_cfgAmpPct (q : SynReg) (v : Word) (s : State.Of p) : (s.synTxn q v).cfgAmpPct = s.cfgAmpPct := rfl
@[simp] theorem synTxn_cfgFoxNumber (q : SynReg) (v : Word) (s : State.Of p) : (s.synTxn q v).cfgFoxNumber = s.cfgFoxNumber := rfl
@[simp] theorem synTxn_cfgFoxMax (q : SynReg) (v : Word) (s : State.Of p) : (s.synTxn q v).cfgFoxMax = s.cfgFoxMax := rfl
@[simp] theorem synTxn_cfgTransmitMinute (q : SynReg) (v : Word) (s : State.Of p) : (s.synTxn q v).cfgTransmitMinute = s.cfgTransmitMinute := rfl
@[simp] theorem synTxn_cfgWinStart (q : SynReg) (v : Word) (s : State.Of p) : (s.synTxn q v).cfgWinStart = s.cfgWinStart := rfl
@[simp] theorem synTxn_cfgWinStop (q : SynReg) (v : Word) (s : State.Of p) : (s.synTxn q v).cfgWinStop = s.cfgWinStop := rfl
@[simp] theorem synTxn_prog (q : SynReg) (v : Word) (s : State.Of p) : (s.synTxn q v).prog = s.prog := rfl
@[simp] theorem synTxn_modTab (q : SynReg) (v : Word) (s : State.Of p) : (s.synTxn q v).modTab = s.modTab := rfl
@[simp] theorem synTxn_synBuf (q : SynReg) (v : Word) (s : State.Of p) : (s.synTxn q v).synBuf = s.synBuf.set q v := rfl
@[simp] theorem synTxn_synAct (q : SynReg) (v : Word) (s : State.Of p) : (s.synTxn q v).synAct = s.synBuf.set q v := rfl
@[simp] theorem synTxn_rtcAlarm1 (q : SynReg) (v : Word) (s : State.Of p) : (s.synTxn q v).rtcAlarm1 = s.rtcAlarm1 := rfl
@[simp] theorem synTxn_rtcAlarm2 (q : SynReg) (v : Word) (s : State.Of p) : (s.synTxn q v).rtcAlarm2 = s.rtcAlarm2 := rfl
@[simp] theorem synTxn_stimulus (q : SynReg) (v : Word) (s : State.Of p) : (s.synTxn q v).stimulus = s.stimulus := rfl
@[simp] theorem synTxn_resp (q : SynReg) (v : Word) (s : State.Of p) : (s.synTxn q v).resp = s.resp := rfl
@[simp] theorem synTxn_flags (q : SynReg) (v : Word) (s : State.Of p) : (s.synTxn q v).flags = s.flags := rfl
@[simp] theorem synTxn_out (q : SynReg) (v : Word) (s : State.Of p) : (s.synTxn q v).out = s.out ++ [.synW q v] ++ [.synApply] := rfl

/-! ## `State.Of.setDeferred` -/

@[simp] theorem setDeferred_symbolIndex (a : Deferred) (s : State.Of p) : (s.setDeferred a).symbolIndex = s.symbolIndex := rfl
@[simp] theorem setDeferred_unitsRemaining (a : Deferred) (s : State.Of p) : (s.setDeferred a).unitsRemaining = s.unitsRemaining := rfl
@[simp] theorem setDeferred_curIsMark (a : Deferred) (s : State.Of p) : (s.setDeferred a).curIsMark = s.curIsMark := rfl
@[simp] theorem setDeferred_rateCount (a : Deferred) (s : State.Of p) : (s.setDeferred a).rateCount = s.rateCount := rfl
@[simp] theorem setDeferred_morseUnit (a : Deferred) (s : State.Of p) : (s.setDeferred a).morseUnit = s.morseUnit := rfl
@[simp] theorem setDeferred_resetFlag (a : Deferred) (s : State.Of p) : (s.setDeferred a).resetFlag = s.resetFlag := rfl
@[simp] theorem setDeferred_morseRunning (a : Deferred) (s : State.Of p) : (s.setDeferred a).morseRunning = s.morseRunning := rfl
@[simp] theorem setDeferred_modPhase (a : Deferred) (s : State.Of p) : (s.setDeferred a).modPhase = s.modPhase := rfl
@[simp] theorem setDeferred_modIndex (a : Deferred) (s : State.Of p) : (s.setDeferred a).modIndex = s.modIndex := rfl
@[simp] theorem setDeferred_busAvailable (a : Deferred) (s : State.Of p) : (s.setDeferred a).busAvailable = s.busAvailable := rfl
@[simp] theorem setDeferred_keyed (a : Deferred) (s : State.Of p) : (s.setDeferred a).keyed = s.keyed := rfl
@[simp] theorem setDeferred_modulationEnabled (a : Deferred) (s : State.Of p) : (s.setDeferred a).modulationEnabled = s.modulationEnabled := rfl
@[simp] theorem setDeferred_ccBand (a : Deferred) (s : State.Of p) : (s.setDeferred a).ccBand = s.ccBand := rfl
@[simp] theorem setDeferred_poweredDown (a : Deferred) (s : State.Of p) : (s.setDeferred a).poweredDown = s.poweredDown := rfl
@[simp] theorem setDeferred_claimedByReader (a : Deferred) (s : State.Of p) : (s.setDeferred a).claimedByReader = s.claimedByReader := rfl
@[simp] theorem setDeferred_deferred (a : Deferred) (s : State.Of p) : (s.setDeferred a).deferred = a := rfl
@[simp] theorem setDeferred_winState (a : Deferred) (s : State.Of p) : (s.setDeferred a).winState = s.winState := rfl
@[simp] theorem setDeferred_withinSlot (a : Deferred) (s : State.Of p) : (s.setDeferred a).withinSlot = s.withinSlot := rfl
@[simp] theorem setDeferred_winAlarmRetry (a : Deferred) (s : State.Of p) : (s.setDeferred a).winAlarmRetry = s.winAlarmRetry := rfl
@[simp] theorem setDeferred_mode (a : Deferred) (s : State.Of p) : (s.setDeferred a).mode = s.mode := rfl
@[simp] theorem setDeferred_cfgWpm (a : Deferred) (s : State.Of p) : (s.setDeferred a).cfgWpm = s.cfgWpm := rfl
@[simp] theorem setDeferred_cfgMorseEn (a : Deferred) (s : State.Of p) : (s.setDeferred a).cfgMorseEn = s.cfgMorseEn := rfl
@[simp] theorem setDeferred_cfgProgLen (a : Deferred) (s : State.Of p) : (s.setDeferred a).cfgProgLen = s.cfgProgLen := rfl
@[simp] theorem setDeferred_cfgModEn (a : Deferred) (s : State.Of p) : (s.setDeferred a).cfgModEn = s.cfgModEn := rfl
@[simp] theorem setDeferred_cfgFreq (a : Deferred) (s : State.Of p) : (s.setDeferred a).cfgFreq = s.cfgFreq := rfl
@[simp] theorem setDeferred_cfgAmpPct (a : Deferred) (s : State.Of p) : (s.setDeferred a).cfgAmpPct = s.cfgAmpPct := rfl
@[simp] theorem setDeferred_cfgFoxNumber (a : Deferred) (s : State.Of p) : (s.setDeferred a).cfgFoxNumber = s.cfgFoxNumber := rfl
@[simp] theorem setDeferred_cfgFoxMax (a : Deferred) (s : State.Of p) : (s.setDeferred a).cfgFoxMax = s.cfgFoxMax := rfl
@[simp] theorem setDeferred_cfgTransmitMinute (a : Deferred) (s : State.Of p) : (s.setDeferred a).cfgTransmitMinute = s.cfgTransmitMinute := rfl
@[simp] theorem setDeferred_cfgWinStart (a : Deferred) (s : State.Of p) : (s.setDeferred a).cfgWinStart = s.cfgWinStart := rfl
@[simp] theorem setDeferred_cfgWinStop (a : Deferred) (s : State.Of p) : (s.setDeferred a).cfgWinStop = s.cfgWinStop := rfl
@[simp] theorem setDeferred_prog (a : Deferred) (s : State.Of p) : (s.setDeferred a).prog = s.prog := rfl
@[simp] theorem setDeferred_modTab (a : Deferred) (s : State.Of p) : (s.setDeferred a).modTab = s.modTab := rfl
@[simp] theorem setDeferred_synBuf (a : Deferred) (s : State.Of p) : (s.setDeferred a).synBuf = s.synBuf := rfl
@[simp] theorem setDeferred_synAct (a : Deferred) (s : State.Of p) : (s.setDeferred a).synAct = s.synAct := rfl
@[simp] theorem setDeferred_rtcAlarm1 (a : Deferred) (s : State.Of p) : (s.setDeferred a).rtcAlarm1 = s.rtcAlarm1 := rfl
@[simp] theorem setDeferred_rtcAlarm2 (a : Deferred) (s : State.Of p) : (s.setDeferred a).rtcAlarm2 = s.rtcAlarm2 := rfl
@[simp] theorem setDeferred_stimulus (a : Deferred) (s : State.Of p) : (s.setDeferred a).stimulus = s.stimulus := rfl
@[simp] theorem setDeferred_resp (a : Deferred) (s : State.Of p) : (s.setDeferred a).resp = s.resp := rfl
@[simp] theorem setDeferred_flags (a : Deferred) (s : State.Of p) : (s.setDeferred a).flags = s.flags := rfl
@[simp] theorem setDeferred_out (a : Deferred) (s : State.Of p) : (s.setDeferred a).out = s.out := rfl

/-! ## The other named updates, in terms of those -/

@[simp] theorem notify_eq_emit (c : Note) (s : State.Of p) : s.notify c = s.emit (.note c) := rfl

@[simp] theorem present_stimulus (w : StimWord) (s : State.Of p) : (s.present w).stimulus = w :: s.stimulus := rfl

/-- The four registers of an image after one is replaced (R43). -/
@[simp] theorem get_set_self (m : SynImage) (q : SynReg) (v : Word) : (m.set q v).get q = v := by cases q <;> rfl

theorem get_set_other (m : SynImage) (q q' : SynReg) (v : Word) (h : q' ≠ q) : (m.set q v).get q' = m.get q' := by
  cases q <;> cases q' <;> first | rfl | exact absurd rfl h

theorem set_get_self (m : SynImage) (q : SynReg) : m.set q (m.get q) = m := by cases q <;> rfl

/-- `SynTxn` in the terms of Safety.lean: the image and the two records (R64). -/
theorem synTxn_eq (q : SynReg) (v : Word) (s : State.Of p) :
    s.synTxn q v = (s.synHolds q v).answered s.resp s.flags (s.out ++ [.synW q v] ++ [.synApply]) := rfl

/-- Starting an operation is answering nothing yet. -/
theorem startOp_eq (r : Resp) (s : State.Of p) : s.startOp r = s.answered r 0 [] := rfl

end

end Sys2Proof.Machine
end

