-- ==== Sys2Proof/Laws/Ops.lean ====
section
/-! SUPPORT. For each shared operation, one lemma that says once everything it can do. -/

namespace Sys2Proof.Machine

variable {p : Config.Params}

/-! ## The mode check -/

/-- In RUN mode an operation of RUN mode is its body on the started state (R283). -/
theorem inRun_of_run {r : Resp} {s : State.Of p} {body : State.Of p → Host.Outcome (State.Of p) Fault Refusal}
    (h : s.mode = .run) :
    inRun r s body = body (s.startOp r) := if_pos h

/-- In CONFIG mode it is LOCKED and nothing else (R283). -/
theorem inRun_of_config {r : Resp} {s : State.Of p} {body : State.Of p → Host.Outcome (State.Of p) Fault Refusal}
    (h : s.mode = .config) : inRun r s body = .next (s.answered r Flag.locked.mask []) := by
  have hne : ¬ s.mode = .run := by rw [h]; decide
  rw [inRun, if_neg hne]
  simp [State.Of.raise, State.Of.startOp, State.Of.answered]

/-- In CONFIG mode an operation of CONFIG mode is its body on the started state (R283). -/
theorem inConfig_of_config {r : Resp} {s : State.Of p} {body : State.Of p → Host.Outcome (State.Of p) Fault Refusal}
    (h : s.mode = .config) : inConfig r s body = body (s.startOp r) := if_pos h

/-- In RUN mode it is LOCKED and nothing else (R283). -/
theorem inConfig_of_run {r : Resp} {s : State.Of p} {body : State.Of p → Host.Outcome (State.Of p) Fault Refusal}
    (h : s.mode = .run) :
    inConfig r s body = .next (s.answered r Flag.locked.mask []) := by
  have hne : ¬ s.mode = .config := by rw [h]; decide
  rw [inConfig, if_neg hne]
  simp [State.Of.raise, State.Of.startOp, State.Of.answered]

/-- What a RUN operation can answer: the body's answer in RUN mode, LOCKED in CONFIG mode. -/
theorem inRun_next {r : Resp} {s t : State.Of p} {body : State.Of p → Host.Outcome (State.Of p) Fault Refusal}
    (h : inRun r s body = .next t) :
    (s.mode = .run ∧ body (s.startOp r) = .next t) ∨ (s.mode = .config ∧ t = s.answered r Flag.locked.mask []) := by
  rcases hm : s.mode with _ | _
  · exact .inl ⟨rfl, (inRun_of_run hm).symm.trans h⟩
  · rw [inRun_of_config hm] at h
    exact .inr ⟨rfl, (Host.Outcome.next.inj h).symm⟩

/-- What a CONFIG operation can answer: the body's answer in CONFIG mode, LOCKED in RUN mode. -/
theorem inConfig_next {r : Resp} {s t : State.Of p} {body : State.Of p → Host.Outcome (State.Of p) Fault Refusal}
    (h : inConfig r s body = .next t) :
    (s.mode = .config ∧ body (s.startOp r) = .next t) ∨ (s.mode = .run ∧ t = s.answered r Flag.locked.mask []) := by
  rcases hm : s.mode with _ | _
  · rw [inConfig_of_run hm] at h
    exact .inr ⟨rfl, (Host.Outcome.next.inj h).symm⟩
  · exact .inl ⟨rfl, (inConfig_of_config hm).symm.trans h⟩

/-- `andThen` answers a next state exactly where its first part does. -/
theorem andThen_next {o : Host.Outcome (State.Of p) Fault Refusal} {f : State.Of p → State.Of p} {t : State.Of p} :
    andThen o f = .next t ↔ ∃ u, o = .next u ∧ f u = t := by
  cases o <;> simp [andThen]

/-! ## The arbiter and the key primitives -/

/-- All the gating of R121 can do: BUSY, COMM_SYN, or the action. -/
theorem gated_cases (act : State.Of p → State.Of p) (s : State.Of p) :
    (s.claimedByReader = true ∧ s.gated act = s.raise .busy) ∨
    (s.claimedByReader = false ∧ s.resp.synOk = false ∧ s.gated act = s.raise .commSyn) ∨
    (s.claimedByReader = false ∧ s.resp.synOk = true ∧ s.gated act = act s) := by
  unfold State.Of.gated State.Of.tryClaim
  cases s.claimedByReader <;> cases s.resp.synOk <;> simp

/-- All `keyOn()` can do (R122). -/
theorem keyOn_cases (s : State.Of p) :
    (s.poweredDown = true ∧ s.keyOn = s.raise .invalid) ∨
    (s.poweredDown = false ∧ s.claimedByReader = true ∧ s.keyOn = (s.setDeferred .turnOn).raise .deferred) ∨
    (s.poweredDown = false ∧ s.claimedByReader = false ∧ s.resp.synOk = false ∧ s.keyOn = s.raise .commSyn) ∨
    (s.poweredDown = false ∧ s.claimedByReader = false ∧ s.resp.synOk = true ∧
      s.keyOn = { s.synTxn .key keyValueOn with keyed := true }) := by
  unfold State.Of.keyOn State.Of.tryClaim
  cases s.poweredDown <;> cases s.claimedByReader <;> cases s.resp.synOk <;> simp

/-- All `keyOff()` can do (R123). -/
theorem keyOff_cases (s : State.Of p) :
    (s.claimedByReader = true ∧ s.keyOff = (s.setDeferred .turnOff).raise .deferred) ∨
    (s.claimedByReader = false ∧ s.resp.synOk = false ∧ s.keyOff = s.raise .commSyn) ∨
    (s.claimedByReader = false ∧ s.resp.synOk = true ∧
      s.keyOff = { s.synTxn .key keyValueOff with keyed := false }) := by
  unfold State.Of.keyOff State.Of.tryClaim
  cases s.claimedByReader <;> cases s.resp.synOk <;> simp

/-- All `drainDeferred()` can do (R103). -/
theorem drainDeferred_cases (s : State.Of p) :
    (s.deferred = .none ∧ s.drainDeferred = s) ∨
    (s.deferred = .turnOn ∧ s.drainDeferred = (s.setDeferred .none).keyOn) ∨
    (s.deferred = .turnOff ∧ s.drainDeferred = (s.setDeferred .none).keyOff) := by
  unfold State.Of.drainDeferred
  rcases h : s.deferred with _ | _ | _
  · refine .inl ⟨rfl, ?_⟩
    simp only [State.Of.setDeferred]
    rw [← h]
  · exact .inr (.inl ⟨rfl, rfl⟩)
  · exact .inr (.inr ⟨rfl, rfl⟩)

/-- What a key primitive leaves alone whatever it does: every field but `keyed`, `deferred`, the synthesizer image and the
outputs (R122, R123). -/
theorem keyOn_frame (s : State.Of p) :
    s.keyOn = { s with
      keyed := s.keyOn.keyed, deferred := s.keyOn.deferred, synBuf := s.keyOn.synBuf, synAct := s.keyOn.synAct,
      flags := s.keyOn.flags, out := s.keyOn.out } := by
  obtain ⟨-, e⟩ | ⟨-, -, e⟩ | ⟨-, -, -, e⟩ | ⟨-, -, -, e⟩ := keyOn_cases s <;> rw [e] <;> rfl

theorem keyOff_frame (s : State.Of p) :
    s.keyOff = { s with
      keyed := s.keyOff.keyed, deferred := s.keyOff.deferred, synBuf := s.keyOff.synBuf, synAct := s.keyOff.synAct,
      flags := s.keyOff.flags, out := s.keyOff.out } := by
  obtain ⟨-, e⟩ | ⟨-, -, e⟩ | ⟨-, -, e⟩ := keyOff_cases s <;> rw [e] <;> rfl

/-! ## The gate -/

/-- When the gate is open (R180). -/
theorem gate_iff (s : State.Of p) :
    s.gate = true ↔ s.winState = .inWindow ∧ (s.cfgFoxNumber = 0 ∨ s.withinSlot = true) ∧ s.ccBand = .none := by
  simp [State.Of.gate, and_assoc]

/-- All `GateUpdate()` can do (R181): a start, a stop, or nothing. -/
theorem gateUpdate_cases (s : State.Of p) :
    (s.gate = true ∧ s.morseRunning = false ∧ s.gateUpdate = { s with morseRunning := true, resetFlag := true }) ∨
    (s.gate = false ∧ s.morseRunning = true ∧
      s.gateUpdate = State.Of.keyOff { s with morseRunning := false, resetFlag := false }) ∨
    (s.gate = s.morseRunning ∧ s.gateUpdate = s) := by
  unfold State.Of.gateUpdate
  cases hg : s.gate <;> cases hm : s.morseRunning <;> simp

/-! ## The clock chip -/

/-- All `RtcArm1` can do (R66). -/
theorem rtcArm1_cases (dt : DateTime) (s : State.Of p) :
    (s.resp.rtcOk = true ∧ s.rtcArm1 dt = State.Of.emit (.rtcA1 dt) { s with rtcAlarm1 := dt }) ∨
    (s.resp.rtcOk = false ∧ s.rtcArm1 dt = s.raise .commRtc) := by
  unfold State.Of.rtcArm1
  cases s.resp.rtcOk <;> simp

/-- All `RtcArm2` can do (R66). -/
theorem rtcArm2_cases (m : Nat) (s : State.Of p) :
    (s.resp.rtcOk = true ∧
      s.rtcArm2 m = State.Of.emit (.rtcA2 (BitVec.ofNat 6 m)) { s with rtcAlarm2 := BitVec.ofNat 6 m }) ∨
    (s.resp.rtcOk = false ∧ s.rtcArm2 m = s.raise .commRtc) := by
  unfold State.Of.rtcArm2
  cases s.resp.rtcOk <;> simp

/-! ## The ROMs and the counters -/

/-- `ProgRead` answers exactly below the program length and inside the ROM (R61). -/
theorem progRead_eq_some (s : State.Of p) (i : Nat) (sym : Symbol) :
    s.progRead i = some sym ↔ i < s.cfgProgLen.toNat ∧ s.prog[i]? = some sym := by
  unfold State.Of.progRead
  split <;> simp_all

/-- `ProgRead` has a value at every index of a program that fits the ROM (R61, R251). -/
theorem progRead_isSome (s : State.Of p) (i : Nat) (h : i < s.cfgProgLen.toNat)
    (hl : s.cfgProgLen.toNat ≤ p.progMax) :
    s.progRead i = some (s.prog[i]'(Nat.lt_of_lt_of_le h hl)) := by
  rw [progRead_eq_some]
  exact ⟨h, Vector.getElem?_eq_getElem _⟩

/-- `TabRead` has a value at every index of the table (R62). -/
theorem tabRead_isSome (s : State.Of p) (i : Nat) (h : i < p.modTableLen) : s.tabRead i = some (s.modTab[i]'h) :=
  Vector.getElem?_eq_getElem h

/-- A counter below its limit counts modulo the limit, where the limit fits its register (R185). -/
theorem wrapInc_toNat {n : Nat} (x : BitVec n) (limit : Nat) (hx : x.toNat < limit) (hl : limit ≤ 2 ^ n) :
    (wrapInc x limit).toNat = (x.toNat + 1) % limit := by
  unfold wrapInc
  split
  · next h => simp [h]
  · next h =>
    have hlt : x.toNat + 1 < limit := by omega
    have hpow : x.toNat + 1 < 2 ^ n := by omega
    rw [Nat.mod_eq_of_lt hlt, BitVec.toNat_add]
    rcases n with _ | n
    · omega
    · have hone : (1 : BitVec (n + 1)).toNat = 1 := by simp
      rw [hone, Nat.mod_eq_of_lt hpow]

/-- A counter below its limit stays below it (R185). -/
theorem wrapInc_lt {n : Nat} (x : BitVec n) (limit : Nat) (hx : x.toNat < limit) (hl : limit ≤ 2 ^ n) :
    (wrapInc x limit).toNat < limit := by
  rw [wrapInc_toNat x limit hx hl]
  exact Nat.mod_lt _ (by omega)

/-! ## The Morse engine -/

/-- A symbol presented to `exec` and a symbol fetched by a tick have one meaning (R172, R175 to R178). -/
theorem exec_symbol (sym : Symbol) (s : State) : exec sym.instr s = .next (loadSymbol sym s) := by
  cases sym <;> rfl

/-- What loading a symbol leaves alone: every field but the two it loads and those of the key-on of a mark (R175 to R178). -/
theorem loadSymbol_frame (sym : Symbol) (s : State.Of p) :
    loadSymbol sym s = { s with
      unitsRemaining := (loadSymbol sym s).unitsRemaining, curIsMark := (loadSymbol sym s).curIsMark,
      keyed := (loadSymbol sym s).keyed, deferred := (loadSymbol sym s).deferred,
      synBuf := (loadSymbol sym s).synBuf, synAct := (loadSymbol sym s).synAct,
      flags := (loadSymbol sym s).flags, out := (loadSymbol sym s).out } := by
  cases sym with
  | dot =>
    simp only [loadSymbol, loadDot]
    rw [keyOn_frame]
  | dash =>
    simp only [loadSymbol, loadDash]
    rw [keyOn_frame]
  | lsp => rfl
  | wsp => rfl

/-- All a unit step can do where it answers a next state: load a symbol, count down, or count down into the trailing unit
of a mark (R172, R174). -/
theorem unitStep_cases {s t : State.Of p} (h : unitStep s = .next t) :
    (s.unitsRemaining = 0 ∧ ∃ sym, s.progRead s.symbolIndex.toNat = some sym ∧
      t = loadSymbol sym { s with symbolIndex := wrapInc s.symbolIndex s.cfgProgLen.toNat }) ∨
    (s.unitsRemaining ≠ 0 ∧ ¬ (s.unitsRemaining = 1 ∧ s.curIsMark = true) ∧
      t = { s with unitsRemaining := s.unitsRemaining - 1 }) ∨
    (s.unitsRemaining = 1 ∧ s.curIsMark = true ∧
      t = State.Of.keyOff { s with unitsRemaining := 0, curIsMark := false }) := by
  unfold unitStep at h
  split at h
  · next h0 =>
    refine .inl ⟨h0, ?_⟩
    unfold fetchSymbol at h
    split at h
    · cases h
    · next sym hs => exact ⟨sym, hs, (Host.Outcome.next.inj h).symm⟩
  · next h0 =>
    have ht := (Host.Outcome.next.inj h).symm
    have h1 : s.unitsRemaining - 1 = 0 ↔ s.unitsRemaining = 1 := by
      constructor
      · intro e; have := congrArg BitVec.toNat e; bv_omega
      · intro e; rw [e]; rfl
    unfold countDown at ht
    by_cases hk : s.unitsRemaining = 1 ∧ s.curIsMark = true
    · rw [if_pos ⟨h1.2 hk.1, hk.2⟩] at ht
      refine .inr (.inr ⟨hk.1, hk.2, ?_⟩)
      rw [ht, hk.1]
      rfl
    · rw [if_neg (fun e => hk ⟨h1.1 e.1, e.2⟩)] at ht
      exact .inr (.inl ⟨h0, hk, ht⟩)

/-! ## Words -/

/-- A word is an instruction above its fields exactly where its reserved bits are zero (R85). -/
theorem reservedAbove_eq_ok {k : Nat} {w : StimWord} {i j : Instr} :
    reservedAbove k w i = .ok j ↔ w.extractLsb' k (54 - k) = 0 ∧ i = j := by
  unfold reservedAbove
  split <;> simp_all

end Sys2Proof.Machine
end

