-- ==== Sys2Proof/Laws/Parametric.lean ====
section
/-! SUPPORT. The machine for any parameters of spec/00_scope.md R9: this machine is its instance at `Config.params`, and the
reset contents are legal for every legal record. -/

namespace Sys2Proof.Machine

variable {p : Config.Params}

/-! ## This machine is an instance -/

theorem exec_eq_execOf (i : Instr) (s : State) : exec i s = execOf Config.params i s := by cases i <;> rfl

theorem step_eq_stepOf (s : State) : step s = stepOf Config.params s := by
  rw [step, stepOf, funext fun i => funext (exec_eq_execOf i)]

theorem reset_eq : State.reset = State.Of.reset Config.params := rfl

/-! ## What a step can do -/

/-- A step waits, answers an illegal word, or runs the decoded operation on the state without its word (R11, R85, R302). -/
theorem stepBy_cases (run : Instr → State.Of p → Host.Outcome (State.Of p) Fault Refusal) (s : State.Of p) :
    (s.stimulus = [] ∧ stepBy run s = .next s) ∨
    (∃ w rest e, s.stimulus = w :: rest ∧ decode w = .error e ∧
      stepBy run s = .next (illegalWord { s with stimulus := rest })) ∨
    (∃ w rest i, s.stimulus = w :: rest ∧ decode w = .ok i ∧ stepBy run s = run i { s with stimulus := rest }) := by
  unfold stepBy State.Of.fetch
  rcases hs : s.stimulus with _ | ⟨w, rest⟩
  · exact .inl ⟨rfl, rfl⟩
  · rcases hd : decode w with e | i
    · exact .inr (.inl ⟨w, rest, e, rfl, hd, by simp [hd]⟩)
    · exact .inr (.inr ⟨w, rest, i, rfl, hd, by simp [hd]⟩)

/-! ## What the constraints of R9 give -/

/-- A legal `foxMax` is not zero: it divides 60 (R9, R208). -/
theorem foxMaxMin_pos (hp : p.Legal) : 1 ≤ p.foxMaxMin := by
  have h := hp.fox_divides p.foxMaxMin (Nat.le_refl _) hp.fox_range
  rcases Nat.eq_zero_or_pos p.foxMaxMin with h0 | h0
  · rw [h0] at h; exact absurd (Nat.eq_zero_of_zero_dvd h) (by decide)
  · exact h0

/-- The unit of a rate in range is one to what the register holds (R25, R167). -/
theorem unit_of_rate (hp : p.Legal) {wpm : Nat} (h1 : p.wpmMin ≤ wpm) (h2 : wpm ≤ p.wpmMax) :
    0 < p.wpmConst / wpm ∧ p.wpmConst / p.wpmMax ≤ p.wpmConst / wpm ∧ p.wpmConst / wpm ≤ p.wpmConst / p.wpmMin ∧
      p.wpmConst / wpm < 2 ^ 8 := by
  have hmin := hp.wpm_one
  have hle : p.wpmConst / wpm ≤ p.wpmConst / p.wpmMin := Nat.div_le_div_left h1 hmin
  exact ⟨Nat.div_pos (Nat.le_trans h2 hp.wpm_const) (by omega), Nat.div_le_div_left h2 (by omega), hle,
    Nat.lt_of_le_of_lt hle hp.unit_width⟩

/-- The configuration after reset is legal for every legal record (R41, R48; log 5). -/
theorem reset_configLegal (hp : p.Legal) : (State.Of.reset p).ConfigLegal where
  wpm := by
    rw [wpmInRange_iff]
    simp only [State.Of.reset, BitVec.toNat_ofNat, Nat.mod_eq_of_lt hp.default_width]
    exact hp.default_range
  progLen := ⟨Nat.le_refl _, hp.prog_range.1⟩
  freq := (freqInRange_iff _ _).2 ⟨BitVec.le_refl _, hp.freq_range⟩
  ampPct := (ampPctInRange_iff _ _).2 (Nat.zero_le _)
  slot := by
    have h0 := foxMaxMin_pos hp
    have h1 := hp.fox_range
    have h2 : p.foxMaxMin < 2 ^ 4 := Nat.lt_of_le_of_lt h1 hp.fox_width
    rw [slotInRange_iff]
    simp only [State.Of.reset, BitVec.toNat_ofNat, Nat.mod_eq_of_lt h2]
    exact ⟨Nat.zero_le _, Nat.le_refl _, h1, h0⟩
  winStart := by rw [DateTime.legal_iff]; simp [State.Of.reset]
  winStop := by rw [DateTime.legal_iff]; simp [State.Of.reset]
  modTab := by
    intro i v h
    have h0 : v = 0 := by
      simp only [State.Of.reset, Vector.getElem?_replicate] at h
      split at h
      · exact (Option.some.inj h).symm
      · cases h
    rw [h0]
    exact Nat.zero_le _

end Sys2Proof.Machine
end

