-- ==== Sys2Proof/Laws/PerInstr.lean ====
section
/-! SUPPORT. A statement about every instruction, one lemma per constructor. -/

/-- The word of an operation carries the operation's opcode and response bits where spec/30_encoding.md R80 puts them; a
symbol's ROM entry is its code (R88) and decodes to it. -/
def Sys2Proof.Laws.OpcodeField.Statement (i : Sys2Proof.Instr) : Prop :=
  (i.isOperation = true → Sys2Proof.opcodeOf (Sys2Proof.encode i) = i.opcode ∧
    Sys2Proof.respOf (Sys2Proof.encode i) = i.resp) ∧
  (i.isSymbol = true → Sys2Proof.decodeSymbol (Sys2Proof.encodeSymbol i) = i)

namespace Sys2Proof.Laws

/-- The operations' half of the statement, which needs nothing about the operation. -/
theorem opcodeField_of_operation (i : Instr) (h : i.isSymbol = false) : OpcodeField.Statement i :=
  ⟨fun _ => ⟨opcodeOf_encode i, respOf_encode i⟩, fun hs => absurd (h.symm.trans hs) (by decide)⟩

/-- The symbols' half. -/
theorem opcodeField_of_symbol (i : Instr) (h : i.isOperation = false) (hs : decodeSymbol (encodeSymbol i) = i) :
    OpcodeField.Statement i :=
  ⟨fun ho => absurd (h.symm.trans ho) (by decide), fun _ => hs⟩

theorem OpcodeField.nop (r : Resp) : Statement (.nop r) :=
  opcodeField_of_operation _ rfl
theorem OpcodeField.tickMorse (r : Resp) : Statement (.tickMorse r) :=
  opcodeField_of_operation _ rfl
theorem OpcodeField.tickMod (r : Resp) : Statement (.tickMod r) :=
  opcodeField_of_operation _ rfl
theorem OpcodeField.evalWindow (r : Resp) (now : DateTime) : Statement (.evalWindow r now) :=
  opcodeField_of_operation _ rfl
theorem OpcodeField.evalSlot (r : Resp) (minute : BitVec 6) : Statement (.evalSlot r minute) :=
  opcodeField_of_operation _ rfl
theorem OpcodeField.readerClaim (r : Resp) : Statement (.readerClaim r) :=
  opcodeField_of_operation _ rfl
theorem OpcodeField.readerRelease (r : Resp) : Statement (.readerRelease r) :=
  opcodeField_of_operation _ rfl
theorem OpcodeField.synSetfreq (r : Resp) (hz : BitVec 32) : Statement (.synSetfreq r hz) :=
  opcodeField_of_operation _ rfl
theorem OpcodeField.synSetamp (r : Resp) (value : BitVec 8) : Statement (.synSetamp r value) :=
  opcodeField_of_operation _ rfl
theorem OpcodeField.synKeyon (r : Resp) : Statement (.synKeyon r) :=
  opcodeField_of_operation _ rfl
theorem OpcodeField.synKeyoff (r : Resp) : Statement (.synKeyoff r) :=
  opcodeField_of_operation _ rfl
theorem OpcodeField.synPwrdown (r : Resp) : Statement (.synPwrdown r) :=
  opcodeField_of_operation _ rfl
theorem OpcodeField.synPwrup (r : Resp) : Statement (.synPwrup r) :=
  opcodeField_of_operation _ rfl
theorem OpcodeField.ccEnable (r : Resp) (band : BitVec 2) : Statement (.ccEnable r band) :=
  opcodeField_of_operation _ rfl
theorem OpcodeField.ccDisable (r : Resp) : Statement (.ccDisable r) :=
  opcodeField_of_operation _ rfl
theorem OpcodeField.reloadBegin (r : Resp) : Statement (.reloadBegin r) :=
  opcodeField_of_operation _ rfl
theorem OpcodeField.reloadEnd (r : Resp) : Statement (.reloadEnd r) :=
  opcodeField_of_operation _ rfl
theorem OpcodeField.cfgWpm (r : Resp) (value : BitVec 8) : Statement (.cfgWpm r value) :=
  opcodeField_of_operation _ rfl
theorem OpcodeField.cfgMorseEn (r : Resp) (en : Bool) : Statement (.cfgMorseEn r en) :=
  opcodeField_of_operation _ rfl
theorem OpcodeField.cfgProgLen (r : Resp) (len : BitVec 16) : Statement (.cfgProgLen r len) :=
  opcodeField_of_operation _ rfl
theorem OpcodeField.cfgProgSym (r : Resp) (index : BitVec 8) (sym : Symbol) : Statement (.cfgProgSym r index sym) :=
  opcodeField_of_operation _ rfl
theorem OpcodeField.cfgModEn (r : Resp) (en : Bool) : Statement (.cfgModEn r en) :=
  opcodeField_of_operation _ rfl
theorem OpcodeField.cfgModTab (r : Resp) (index : BitVec 8) (word : BitVec 32) : Statement (.cfgModTab r index word) :=
  opcodeField_of_operation _ rfl
theorem OpcodeField.cfgFreq (r : Resp) (hz : BitVec 32) : Statement (.cfgFreq r hz) :=
  opcodeField_of_operation _ rfl
theorem OpcodeField.cfgAmp (r : Resp) (value : BitVec 8) : Statement (.cfgAmp r value) :=
  opcodeField_of_operation _ rfl
theorem OpcodeField.cfgSlot (r : Resp) (foxNumber foxMax transmitMinute : BitVec 4) : Statement (.cfgSlot r foxNumber foxMax transmitMinute) :=
  opcodeField_of_operation _ rfl
theorem OpcodeField.cfgWinStart (r : Resp) (dt : DateTime) : Statement (.cfgWinStart r dt) :=
  opcodeField_of_operation _ rfl
theorem OpcodeField.cfgWinStop (r : Resp) (dt : DateTime) : Statement (.cfgWinStop r dt) :=
  opcodeField_of_operation _ rfl
theorem OpcodeField.dot : Statement .dot := opcodeField_of_symbol _ rfl rfl
theorem OpcodeField.dash : Statement .dash := opcodeField_of_symbol _ rfl rfl
theorem OpcodeField.lsp : Statement .lsp := opcodeField_of_symbol _ rfl rfl
theorem OpcodeField.wsp : Statement .wsp := opcodeField_of_symbol _ rfl rfl

end Sys2Proof.Laws
end

