-- ==== Sys2Proof/Machine/Assembler.lean ====
section
/-! DEFINITION. The textual form of operations and programs (spec/30_encoding.md R95) and the pseudo-instructions (R96), as
functions on lists of characters (log 21). No operation depends on it. -/

namespace Sys2Proof

/-! ## Words of a line -/

/-- The pieces of a text between the occurrences of a separator. -/
def splitOn (sep : Char) : List Char → List (List Char)
  | [] => [[]]
  | c :: cs =>
    match splitOn sep cs with
    | [] => [[c]]
    | piece :: rest => if c = sep then [] :: piece :: rest else (c :: piece) :: rest

/-- The words of a line, with the comment from `;` on left out (R95). -/
def lineWords (line : List Char) : List (List Char) :=
  (splitOn ' ' (line.takeWhile (fun c => decide (c ≠ ';')))).filter (fun w => decide (w ≠ []))

/-! ## Numbers -/

/-- The value of a digit, decimal or hexadecimal. -/
def digitValue (c : Char) : Option Nat :=
  if 48 ≤ c.toNat ∧ c.toNat ≤ 57 then some (c.toNat - 48)
  else if 97 ≤ c.toNat ∧ c.toNat ≤ 102 then some (c.toNat - 87)
  else if 65 ≤ c.toNat ∧ c.toNat ≤ 70 then some (c.toNat - 55)
  else none

/-- The value of digits in a base, after those already read. -/
def digitsValue (base : Nat) : Nat → List Char → Option Nat
  | acc, [] => some acc
  | acc, c :: cs =>
    match digitValue c with
    | some d => if d < base then digitsValue base (acc * base + d) cs else none
    | none => none

/-- A decimal number of one digit or more: an empty group of digits is no number (DESIGN CHOICE, log 21: R95 does not say). -/
def decimalOf : List Char → Option Nat
  | [] => none
  | c :: cs => digitsValue 10 0 (c :: cs)

/-- A decimal number, or a hexadecimal one after `0x` (R95). -/
def numberOf : List Char → Option Nat
  | '0' :: 'x' :: c :: cs => digitsValue 16 0 (c :: cs)
  | cs => decimalOf cs

/-- A number that fits a field of `n` bits. -/
def fieldOf (n : Nat) (v : Nat) : Option (BitVec n) := if v < 2 ^ n then some (BitVec.ofNat n v) else none

/-! ## Operands -/

/-- The value of a `field=value` pair. -/
inductive OperandText where
  | number (v : Nat)
  | dateTime (d : DateTime)
deriving DecidableEq, Repr

/-- A `field=value` pair (R95). -/
structure FieldText where
  name : List Char
  value : OperandText
deriving DecidableEq, Repr

/-- The three words `YY-MM-DD hh:mm:ss wN` of a DateTime (R95). Each of the seven groups is one digit or more, and an empty
group makes no DateTime (DESIGN CHOICE, log 21: R95 does not say what a missing or a further digit means, and the lines of
spec/95_test_vectors.md have groups of up to three digits). -/
def dateTimeText (day time weekday : List Char) : Option DateTime :=
  match splitOn '-' day, splitOn ':' time, weekday with
  | [yy, mo, dd], [hh, mi, ss], 'w' :: n => do
    let year ← fieldOf 7 (← decimalOf yy)
    let month ← fieldOf 4 (← decimalOf mo)
    let date ← fieldOf 5 (← decimalOf dd)
    let hour ← fieldOf 5 (← decimalOf hh)
    let minute ← fieldOf 6 (← decimalOf mi)
    let second ← fieldOf 6 (← decimalOf ss)
    let day ← fieldOf 3 (← decimalOf n)
    some ⟨second, minute, hour, date, month, year, day⟩
  | _, _, _ => none

/-- The value of a pair that is no DateTime: a number, or one of the two band names (R95). -/
def operandValue (name value : List Char) : Option Nat :=
  if name = "band".toList ∧ value = "2m".toList then some 1
  else if name = "band".toList ∧ value = "80m".toList then some 2
  else numberOf value

/-- The pairs of a line, in any order, and the words after them (R95). A DateTime takes three words. -/
def fieldTexts : List (List Char) → Option (List FieldText × List (List Char))
  | [] => some ([], [])
  | w :: rest =>
    match splitOn '=' w with
    | [name, value] =>
      if name = "now".toList ∨ name = "dt".toList then
        match rest with
        | time :: weekday :: rest =>
          match dateTimeText value time weekday, fieldTexts rest with
          | some d, some (fs, more) => some (⟨name, .dateTime d⟩ :: fs, more)
          | _, _ => none
        | _ => none
      else
        match operandValue name value, fieldTexts rest with
        | some v, some (fs, more) => some (⟨name, .number v⟩ :: fs, more)
        | _, _ => none
    | _ => some ([], w :: rest)

/-- The response bits after the pairs: `!syn`, `!rtc`, both or neither (R95). -/
def respText : List (List Char) → Option Resp
  | [] => some ⟨true, true⟩
  | [w] =>
    if w = "!syn".toList then some ⟨false, true⟩
    else if w = "!rtc".toList then some ⟨true, false⟩
    else none
  | [w, v] => if w = "!syn".toList ∧ v = "!rtc".toList then some ⟨false, false⟩ else none
  | _ => none

/-- The number in the field `name`, where it fits `n` bits. -/
def numberField (fs : List FieldText) (name : String) (n : Nat) : Option (BitVec n) :=
  match fs.find? (fun f => decide (f.name = name.toList)) with
  | some ⟨_, .number v⟩ => fieldOf n v
  | _ => none

/-- The DateTime in the field `name`. -/
def dateTimeField (fs : List FieldText) (name : String) : Option DateTime :=
  match fs.find? (fun f => decide (f.name = name.toList)) with
  | some ⟨_, .dateTime d⟩ => some d
  | _ => none

/-- The seven fields of format D as seven pairs, by their names of R81. R95 has `field=value` pairs for the fields of a format
and writes a DateTime after `now=` or `dt=`: both forms are accepted (DESIGN CHOICE, log 21). -/
def formatDFields (fs : List FieldText) : Option DateTime := do
  some ⟨← numberField fs "second" 6, ← numberField fs "minute" 6, ← numberField fs "hour" 5, ← numberField fs "date" 5,
    ← numberField fs "month" 4, ← numberField fs "year" 7, ← numberField fs "weekday" 3⟩

/-! ## Operations (R82, R95) -/

/-- A mnemonic, how many pairs it takes (those of its format's fields, R81), and the operation they make. -/
structure Mnemonic where
  name : String
  fields : Nat
  build : Resp → List FieldText → Option Instr

/-- The operations without a field: format Z (R81). `RELEASE` is the one-operation pseudo-instruction of R96. -/
def mnemonicsZ : List Mnemonic :=
  [⟨"NOP", 0, fun r _ => some (.nop r)⟩, ⟨"TICK_MORSE", 0, fun r _ => some (.tickMorse r)⟩,
   ⟨"TICK_MOD", 0, fun r _ => some (.tickMod r)⟩, ⟨"READER_CLAIM", 0, fun r _ => some (.readerClaim r)⟩,
   ⟨"READER_RELEASE", 0, fun r _ => some (.readerRelease r)⟩, ⟨"RELEASE", 0, fun r _ => some (.readerRelease r)⟩,
   ⟨"SYN_KEYON", 0, fun r _ => some (.synKeyon r)⟩, ⟨"SYN_KEYOFF", 0, fun r _ => some (.synKeyoff r)⟩,
   ⟨"SYN_PWRDOWN", 0, fun r _ => some (.synPwrdown r)⟩, ⟨"SYN_PWRUP", 0, fun r _ => some (.synPwrup r)⟩,
   ⟨"CC_DISABLE", 0, fun r _ => some (.ccDisable r)⟩, ⟨"RELOAD_BEGIN", 0, fun r _ => some (.reloadBegin r)⟩,
   ⟨"RELOAD_END", 0, fun r _ => some (.reloadEnd r)⟩]

/-- The operations of format D, with the DateTime in one pair or its seven fields in seven (log 21). `ALARM1` is the
one-operation pseudo-instruction of R96, whose only form is `ALARM1 now=<dt>`. -/
def mnemonicsD : List Mnemonic :=
  [⟨"EVAL_WINDOW", 1, fun r fs => do some (.evalWindow r (← dateTimeField fs "now"))⟩,
   ⟨"EVAL_WINDOW", 7, fun r fs => do some (.evalWindow r (← formatDFields fs))⟩,
   ⟨"ALARM1", 1, fun r fs => do some (.evalWindow r (← dateTimeField fs "now"))⟩,
   ⟨"CFG_WIN_START", 1, fun r fs => do some (.cfgWinStart r (← dateTimeField fs "dt"))⟩,
   ⟨"CFG_WIN_START", 7, fun r fs => do some (.cfgWinStart r (← formatDFields fs))⟩,
   ⟨"CFG_WIN_STOP", 1, fun r fs => do some (.cfgWinStop r (← dateTimeField fs "dt"))⟩,
   ⟨"CFG_WIN_STOP", 7, fun r fs => do some (.cfgWinStop r (← formatDFields fs))⟩]

/-- The operations of the other formats with fields (R81). `ALARM2` is the one-operation pseudo-instruction of R96. -/
def mnemonicsF : List Mnemonic :=
  [⟨"EVAL_SLOT", 1, fun r fs => do some (.evalSlot r (← numberField fs "minute" 6))⟩,
   ⟨"ALARM2", 1, fun r fs => do some (.evalSlot r (← numberField fs "minute" 6))⟩,
   ⟨"SYN_SETFREQ", 1, fun r fs => do some (.synSetfreq r (← numberField fs "hz" 32))⟩,
   ⟨"SYN_SETAMP", 1, fun r fs => do some (.synSetamp r (← numberField fs "value" 8))⟩,
   ⟨"CC_ENABLE", 1, fun r fs => do some (.ccEnable r (← numberField fs "band" 2))⟩,
   ⟨"CFG_WPM", 1, fun r fs => do some (.cfgWpm r (← numberField fs "value" 8))⟩,
   ⟨"CFG_MORSE_EN", 1, fun r fs => do some (.cfgMorseEn r (decide ((← numberField fs "en" 1) = 1)))⟩,
   ⟨"CFG_PROG_LEN", 1, fun r fs => do some (.cfgProgLen r (← numberField fs "len" 16))⟩,
   ⟨"CFG_PROG_SYM", 2, fun r fs => do
      some (.cfgProgSym r (← numberField fs "index" 8) (symbolOfCode (← numberField fs "sym" 2)))⟩,
   ⟨"CFG_MOD_EN", 1, fun r fs => do some (.cfgModEn r (decide ((← numberField fs "en" 1) = 1)))⟩,
   ⟨"CFG_MOD_TAB", 2, fun r fs => do
      some (.cfgModTab r (← numberField fs "index" 8) (← numberField fs "word" 32))⟩,
   ⟨"CFG_FREQ", 1, fun r fs => do some (.cfgFreq r (← numberField fs "hz" 32))⟩,
   ⟨"CFG_AMP", 1, fun r fs => do some (.cfgAmp r (← numberField fs "value" 8))⟩,
   ⟨"CFG_SLOT", 3, fun r fs => do
      some (.cfgSlot r (← numberField fs "foxNumber" 4) (← numberField fs "foxMax" 4)
        (← numberField fs "transmitMinute" 4))⟩]

/-- The operation of one line without its repetition (R95). -/
def operationText (mnemonic : List Char) (args : List (List Char)) : Option Instr := do
  let (fs, rest) ← fieldTexts args
  let r ← respText rest
  let m ← (mnemonicsZ ++ mnemonicsD ++ mnemonicsF).find?
    (fun m => decide (m.name.toList = mnemonic) && decide (m.fields = fs.length))
  m.build r fs

/-! ## Pseudo-instructions (R96) -/

/-- The response bits of an operation with none written: both 1 (R95). -/
def bothOk : Resp := ⟨true, true⟩

/-- `TICKS n`. -/
def ticks (n : Nat) : List Instr := List.replicate n (.tickMorse bothOk)

/-- `MTICKS n`. -/
def mticks (n : Nat) : List Instr := List.replicate n (.tickMod bothOk)

/-- The symbol writes of `LOADPROG`, from an index on. -/
def loadSymbols : Nat → List Symbol → List Instr
  | _, [] => []
  | i, sym :: rest => .cfgProgSym bothOk (BitVec.ofNat 8 i) sym :: loadSymbols (i + 1) rest

/-- `LOADPROG`: the length, then the symbols in order. A program longer than an index can say has no expansion. -/
def loadProg (p : List Symbol) : Option (List Instr) :=
  if p.length ≤ 256 then some (.cfgProgLen bothOk (BitVec.ofNat 16 p.length) :: loadSymbols 0 p) else none

/-- The word writes of `LOADTAB`, from an index on. -/
def loadWords : Nat → List Word → List Instr
  | _, [] => []
  | i, w :: rest => .cfgModTab bothOk (BitVec.ofNat 8 i) w :: loadWords (i + 1) rest

/-- `LOADTAB`: the words in order. A table longer than an index can say has no expansion. -/
def loadTab (t : List Word) : Option (List Instr) := if t.length ≤ 256 then some (loadWords 0 t) else none

/-- A symbol stream over the four characters of R95. -/
def symbolStream : List Char → Option (List Symbol)
  | [] => some []
  | c :: cs =>
    match c, symbolStream cs with
    | '.', some p => some (.dot :: p)
    | '-', some p => some (.dash :: p)
    | '|', some p => some (.lsp :: p)
    | '/', some p => some (.wsp :: p)
    | _, _ => none

/-- A word between double quotes, without them. -/
def unquote : List Char → Option (List Char)
  | c :: cs =>
    if c = Char.ofNat 34 ∧ cs.getLast? = some (Char.ofNat 34) then some cs.dropLast else none
  | [] => none

/-- The values of `LOADTAB`, separated by commas. -/
def tableWords : List (List Char) → Option (List Word)
  | [] => some []
  | v :: rest => do
    let n ← numberOf v
    let w ← fieldOf 32 n
    some (w :: (← tableWords rest))

/-- The operations of one line without its repetition: an operation or a pseudo-instruction (R95, R96). -/
def instructionText : List (List Char) → Option (List Instr)
  | [] => some []
  | m :: args =>
    if m = "TICKS".toList then
      match args with
      | [n] => do some (ticks (← numberOf n))
      | _ => none
    else if m = "MTICKS".toList then
      match args with
      | [n] => do some (mticks (← numberOf n))
      | _ => none
    else if m = "LOADPROG".toList then
      match args with
      | [p] => do loadProg (← symbolStream (← unquote p))
      | _ => none
    else if m = "LOADTAB".toList then
      match args with
      | [t] => do loadTab (← tableWords (splitOn ',' t))
      | _ => none
    else do some [← operationText m args]

/-- The suffix `*n` of a line, if it has one (R96). -/
def repetition (ws : List (List Char)) : Option (List (List Char) × Nat) :=
  match ws.getLast? with
  | some ('*' :: n) => do some (ws.dropLast, ← numberOf n)
  | _ => some (ws, 1)

/-- The operations of one line (R95, R96): none where the line is blank or a comment. -/
def assembleLine (line : List Char) : Option (List Instr) := do
  let (ws, n) ← repetition (lineWords line)
  let is ← instructionText ws
  some (List.replicate n is).flatten

/-- The operations of a program, line by line. -/
def assemble : List (List Char) → Option (List Instr)
  | [] => some []
  | line :: rest => do some ((← assembleLine line) ++ (← assemble rest))

/-- The stimulus words of a program. -/
def assembleWords (program : List (List Char)) : Option (List StimWord) := do
  some ((← assemble program).map encode)

end Sys2Proof
end

