-- ==== Sys2Proof/Tests/Slice0.lean ====
section
/-! SUPPORT. Tests on fixed values. A word, a flag or a field a test expects is taken from spec/95_test_vectors.md (the
section is named where it is not the word's own operation) or from the rule the comment names. The witnesses at the end
show, for each obligation with hypotheses, concrete states and operands that meet them. -/

namespace Sys2Proof.Tests

-- One theorem after the other: with a worker and a stack for each, this many run out of memory.
set_option Elab.async false

open Sys2Proof Sys2Proof.Machine

/-! ## Helpers -/

/-- Both transactions succeed. -/
def ok : Resp := ⟨true, true⟩

/-- The synthesizer transactions fail. -/
def noSyn : Resp := ⟨false, true⟩

/-- The clock-chip writes fail. -/
def noRtc : Resp := ⟨true, false⟩

/-- 25-06-01 10:00:00 w7, the start of the window. -/
def ten : DateTime := ⟨0, 0, 10, 1, 6, 25, 7⟩

/-- 25-06-01 11:00:00 w7, the stop of the window. -/
def eleven : DateTime := ⟨0, 0, 11, 1, 6, 25, 7⟩

/-- The values the test vectors choose for the OPEN parameters; the literals are the defaults of R9. -/
def vectorParams : Config.Params where
  modCycle := 4
  modYield := 1
  freqMin := 1000000
  freqMax := 9999999
  ampWordMax := 1023
  ampWordOfPercent := fun p => BitVec.ofNat 32 (p * 1023 / 100)
  tMorse := 2
  tMod := 1

/-- An image of the synthesizer with the carrier off and the chip up. -/
def image : SynImage := ⟨0, 1023, 1000000, 0⟩

/-- RUN mode after a boot of the machine with the parameters `p`: quiet, the window of the vectors, the program DASH DASH WSP, a table whose entries tell their
index. -/
def baseOf (p : Config.Params) : State.Of p := { State.Of.reset p with
  mode := .run
  cfgProgLen := 3
  prog := (Vector.replicate p.progMax Symbol.dash).setIfInBounds 2 .wsp
  modTab := Vector.ofFn fun i => BitVec.ofNat 32 (100 + i.val)
  cfgWinStart := ten
  cfgWinStop := eleven
  cfgFreq := 1000000
  cfgAmpPct := 100
  synBuf := image
  synAct := image
  rtcAlarm1 := ten
  rtcAlarm2 := 0 }

/-- The same for this machine. -/
def base : State := baseOf Config.params

/-- CONFIG mode with the same contents. -/
def confOf (p : Config.Params) : State.Of p := { baseOf p with mode := .config }

/-- The same for this machine. -/
def conf : State := confOf Config.params

/-- The engine runs in the open window, at a unit step. -/
def running : State := { base with winState := .inWindow, morseRunning := true }

/-- Fox 3 of 5 with transmit minute 2, in the window. -/
def fox : State := { base with
  winState := .inWindow, cfgFoxNumber := 3, cfgFoxMax := 5, cfgTransmitMinute := 2 }

/-- The next state an outcome answers. -/
def after {p : Config.Params} (o : Host.Outcome (State.Of p) Fault Refusal) : Option (State.Of p) :=
  match o with
  | .next t => some t
  | .fault _ | .refused _ => none

/-- What a test looks at in the next state. -/
def see {p : Config.Params} {α : Type} (o : Host.Outcome (State.Of p) Fault Refusal) (f : State.Of p → α) :
    Option α := (after o).map f

/-! ## Well-formedness: a symbol is no operation and an operation is no symbol -/

theorem test_symbol_is_no_operation :
    Instr.dot.isOperation = false ∧ Instr.dash.isOperation = false ∧ Instr.lsp.isOperation = false ∧
      Instr.wsp.isOperation = false := by decide

theorem test_operation_is_no_symbol :
    (Instr.nop ok).isSymbol = false ∧ (Instr.cfgProgSym ok 0 .dot).isSymbol = false := by decide

theorem test_places : (Instr.nop ok).isOperation = true ∧ Instr.wsp.isSymbol = true := by decide

/-! ## Decoding: the words of 95_test_vectors.md section 9, one for each operation, and R88 for the symbols -/
theorem test_decode_nop : decode 0x00C0000000000000 = .ok (.nop ok) := by decide
theorem test_decode_tickMorse : decode 0x01C0000000000000 = .ok (.tickMorse ok) := by decide
theorem test_decode_tickMod : decode 0x02C0000000000000 = .ok (.tickMod ok) := by decide
theorem test_decode_evalWindow : decode 0x03C0000E6582A000 = .ok (.evalWindow ok ⟨0, 0, 10, 1, 6, 25, 7⟩) := by decide
theorem test_decode_evalSlot : decode 0x04C000000000003B = .ok (.evalSlot ok 59) := by decide
theorem test_decode_readerClaim : decode 0x08C0000000000000 = .ok (.readerClaim ok) := by decide
theorem test_decode_readerRelease : decode 0x09C0000000000000 = .ok (.readerRelease ok) := by decide
theorem test_decode_synSetfreq : decode 0x10C0000000369C78 = .ok (.synSetfreq ok 3579000) := by decide
theorem test_decode_synSetamp : decode 0x11C0000000000064 = .ok (.synSetamp ok 100) := by decide
theorem test_decode_synKeyon : decode 0x12C0000000000000 = .ok (.synKeyon ok) := by decide
theorem test_decode_synKeyoff : decode 0x13C0000000000000 = .ok (.synKeyoff ok) := by decide
theorem test_decode_synPwrdown : decode 0x14C0000000000000 = .ok (.synPwrdown ok) := by decide
theorem test_decode_synPwrup : decode 0x15C0000000000000 = .ok (.synPwrup ok) := by decide
theorem test_decode_ccEnable : decode 0x16C0000000000002 = .ok (.ccEnable ok 2) := by decide
theorem test_decode_ccDisable : decode 0x17C0000000000000 = .ok (.ccDisable ok) := by decide
theorem test_decode_reloadBegin : decode 0x20C0000000000000 = .ok (.reloadBegin ok) := by decide
theorem test_decode_reloadEnd : decode 0x21C0000000000000 = .ok (.reloadEnd ok) := by decide
theorem test_decode_cfgWpm : decode 0x22C000000000000C = .ok (.cfgWpm ok 12) := by decide
theorem test_decode_cfgMorseEn : decode 0x23C0000000000001 = .ok (.cfgMorseEn ok true) := by decide
theorem test_decode_cfgProgLen : decode 0x24C0000000000011 = .ok (.cfgProgLen ok 17) := by decide
theorem test_decode_cfgProgSym : decode 0x25C0000000000310 = .ok (.cfgProgSym ok 16 .wsp) := by decide
theorem test_decode_cfgModEn : decode 0x26C0000000000001 = .ok (.cfgModEn ok true) := by decide
theorem test_decode_cfgModTab : decode 0x27C000000000D309 = .ok (.cfgModTab ok 9 211) := by decide
theorem test_decode_cfgFreq : decode 0x28C0000000369C78 = .ok (.cfgFreq ok 3579000) := by decide
theorem test_decode_cfgAmp : decode 0x29C000000000004B = .ok (.cfgAmp ok 75) := by decide
theorem test_decode_cfgSlot : decode 0x2AC0000000000253 = .ok (.cfgSlot ok 3 5 2) := by decide
theorem test_decode_cfgWinStart : decode 0x2BC0000E6582A000 = .ok (.cfgWinStart ok ⟨0, 0, 10, 1, 6, 25, 7⟩) := by decide
theorem test_decode_cfgWinStop : decode 0x2CC0000E6582C78F = .ok (.cfgWinStop ok ⟨15, 30, 12, 1, 6, 25, 7⟩) := by decide

theorem test_decode_symbols :
    decodeSymbol 0b00 = .dot ∧ decodeSymbol 0b01 = .dash ∧ decodeSymbol 0b10 = .lsp ∧ decodeSymbol 0b11 = .wsp := by decide

/-- 95_test_vectors.md section 9, the response bits. -/
theorem test_decode_response_bits :
    decode 0x0040000000000000 = .ok (.nop noSyn) ∧ decode 0x0080000000000000 = .ok (.nop noRtc) ∧
      decode 0x0000000000000000 = .ok (.nop ⟨false, false⟩) := by decide

/-- 95_test_vectors.md section 9, the illegal words. -/
theorem test_decode_reserved_bits :
    decode 0x22C0000000000100 = .error (.reservedBits 0x22) ∧ decode 0x03C0001000000000 = .error (.reservedBits 0x03) ∧
      decode 0x27C0010000000000 = .error (.reservedBits 0x27) ∧ decode 0x16C0000000000004 = .error (.reservedBits 0x16) := by
  decide

/-- 95_test_vectors.md section 9 and the ends of the ranges of R86. -/
theorem test_decode_unassigned :
    decode 0x07C0000000000000 = .error (.unassignedOpcode 0x07) ∧
      decode 0x0AC0000000000000 = .error (.unassignedOpcode 0x0A) ∧
      decode 0x2DC0000000000000 = .error (.unassignedOpcode 0x2D) ∧
      decode 0xFFFFFFFFFFFFFFFF = .error (.unassignedOpcode 0xFF) := by decide

/-- R67: big-endian, and R80: no shorter word. -/
theorem test_decode_bytes :
    decodeBytes [0x04, 0xC0, 0, 0, 0, 0, 0, 0x3B, 0xAA] = .ok (.evalSlot ok 59, [0xAA]) ∧
      decodeBytes [0x04, 0xC0, 0, 0, 0, 0, 0] = .error .truncated := by decide

theorem test_encode_words :
    encode (.evalWindow ok ten) = 0x03C0000E6582A000 ∧ encode (.cfgModTab ok 9 211) = 0x27C000000000D309 ∧
      encode (.evalSlot noRtc 5) = 0x0480000000000005 := by decide

theorem test_table_word :
    decodeTableWord 64 0x04C000000000003B = some (.evalSlot ok 59) ∧ decodeTableWord 2 1 = some .dash ∧
      decodeTableWord 64 0x05C0000000000000 = none := by decide

/-! ## The step -/

/-- V1.3 row 2, through the fetch. -/
theorem test_step_runs_the_word :
    see (step (({ base with claimedByReader := true } : State).withFetchWord 64 0x12C0000000000000))
      (fun t => (t.deferred, t.flags, t.stimulus)) = some (.turnOn, 0x01, []) := by decide

/-- The table's row of DASH is run as `prog[0]` by the tick after a restart (R171, R176). -/
theorem test_step_runs_the_symbol :
    see (step (base.withFetchWord 2 1)) (fun t => (t.symbolIndex, t.unitsRemaining, t.curIsMark, t.keyed)) =
      some (1, 3, true, true) := by decide

/-- Section 9: an illegal word. -/
theorem test_step_illegal :
    see (step (base.withFetchWord 64 0x01C0000000000001)) (fun t => (t.flags, t.out, t.keyed)) =
      some (0x80, [], false) := by decide

/-! ## The instructions -/

/-- R260. -/
theorem test_nop : see (exec (.nop noSyn) conf) (fun t => (t.flags, t.out, t.mode)) = some (0, [], .config) := by decide

/-- The example of R170: the restart tick loads `prog[0]` and keys on. -/
theorem test_tickMorse_restart :
    see (exec (.tickMorse ok) { running with resetFlag := true, symbolIndex := 2, unitsRemaining := 2, rateCount := 3 })
      (fun t => (t.symbolIndex, t.unitsRemaining, t.rateCount, t.resetFlag, t.out)) =
      some (1, 3, 1, false, [.synW .key 1, .synApply]) := by decide

/-- V6.2 row 10: the key-off of the trailing unit is denied and stored. -/
theorem test_tickMorse_trailing_unit_denied :
    see (exec (.tickMorse ok)
        { running with unitsRemaining := 1, curIsMark := true, keyed := true, claimedByReader := true })
      (fun t => (t.unitsRemaining, t.curIsMark, t.deferred, t.keyed, t.flags)) =
      some (0, false, .turnOff, true, 0x01) := by decide

/-- The example of R152 with the parameters of the vectors: the index wraps before the read. -/
theorem test_tickMod_write :
    see (execOf vectorParams (.tickMod ok)
        { baseOf vectorParams with modulationEnabled := true, keyed := true, modPhase := 3, modIndex := 9 })
      (fun t => (t.modPhase, t.modIndex, t.busAvailable, t.out)) =
      some (0, 0, false, [.synW .amp 100, .synApply]) := by decide

/-- Section 5 row 8: a denied write still advances the index. -/
theorem test_tickMod_denied :
    see (execOf vectorParams (.tickMod ok)
        { baseOf vectorParams with
          modulationEnabled := true, keyed := true, modPhase := 3, modIndex := 4, claimedByReader := true })
      (fun t => (t.modPhase, t.modIndex, t.flags, t.synAct.amp)) = some (0, 5, 0x02, 1023) := by decide

/-- The example of R205: equality to the start is inside. -/
theorem test_evalWindow_enters :
    see (exec (.evalWindow ok ten) { base with winState := .outOfWindow })
      (fun t => (t.winState, t.morseRunning, t.resetFlag, t.out)) =
      some (.inWindow, true, true, [.rtcA1 eleven, .note .windowEntered]) := by decide

/-- V1.5 row 7: equality to the stop is outside, and the key-off comes first. -/
theorem test_evalWindow_leaves :
    see (exec (.evalWindow ok eleven) running) (fun t => (t.winState, t.morseRunning, t.out)) =
      some (.outOfWindow, false, [.synW .key 0, .synApply, .rtcA1 ten, .note .windowLeft]) := by decide

/-- The example of R215. -/
theorem test_evalSlot_on :
    see (exec (.evalSlot ok 7) fox) (fun t => (t.withinSlot, t.morseRunning, t.resetFlag, t.out)) =
      some (true, true, true, [.rtcA2 8, .note .slotOn]) := by decide

/-- P4 row 2: the difference of minutes is negative, and neither boundary is hit. -/
theorem test_evalSlot_misaligned :
    see (exec (.evalSlot ok 58) { fox with cfgWinStart := { ten with minute := 58 } })
      (fun t => (t.withinSlot, t.flags, t.out)) = some (false, 0x20, [.rtcA2 0]) := by decide

/-- R104. -/
theorem test_readerClaim :
    see (exec (.readerClaim ok) conf) (fun t => (t.claimedByReader, t.flags)) = some (true, 0) := by decide

/-- The example of R105. -/
theorem test_readerRelease_drains :
    see (exec (.readerRelease ok) { base with claimedByReader := true, deferred := .turnOn })
      (fun t => (t.claimedByReader, t.deferred, t.keyed, t.out)) =
      some (false, .none, true, [.synW .key 1, .synApply]) := by decide

/-- Section 3, corner case 1: the drained action fails and is lost. -/
theorem test_readerRelease_fails :
    see (exec (.readerRelease noSyn) { base with claimedByReader := true, deferred := .turnOn })
      (fun t => (t.deferred, t.keyed, t.flags, t.out)) = some (.none, false, 0x08, []) := by decide

/-- Section 4: the ends of the frequency range. -/
theorem test_synSetfreq_range :
    see (execOf vectorParams (.synSetfreq ok 9999999) (baseOf vectorParams)) (fun t => t.out) =
      some [.synW .freq 9999999, .synApply] ∧
    see (execOf vectorParams (.synSetfreq ok 10000000) (baseOf vectorParams)) (fun t => t.flags) = some 0x04 ∧
    see (execOf vectorParams (.synSetfreq ok 999999) (baseOf vectorParams)) (fun t => t.flags) = some 0x04 := by decide

/-- Section 4: 50 percent, and the range before the bus. -/
theorem test_synSetamp :
    see (execOf vectorParams (.synSetamp ok 50) (baseOf vectorParams)) (fun t => t.out) =
      some [.synW .amp 511, .synApply] ∧
    see (exec (.synSetamp ok 101) { base with claimedByReader := true }) (fun t => t.flags) = some 0x04 := by decide

/-- Section 4: powered down and claimed answers INVALID. -/
theorem test_synKeyon_powered_down :
    see (exec (.synKeyon ok) { base with poweredDown := true, claimedByReader := true })
      (fun t => (t.flags, t.deferred, t.keyed)) = some (0x04, .none, false) := by decide

/-- The example of R125. -/
theorem test_synKeyoff_deferred :
    see (exec (.synKeyoff ok) { base with keyed := true, claimedByReader := true, deferred := .turnOn })
      (fun t => (t.deferred, t.keyed, t.flags)) = some (.turnOff, true, 0x01) := by decide

/-- The example of R128. -/
theorem test_synPwrdown :
    see (exec (.synPwrdown ok) { base with keyed := true }) (fun t => (t.keyed, t.poweredDown, t.out)) =
      some (false, true, [.synW .key 0, .synApply, .synW .power 1, .synApply]) := by decide

/-- The example of R129. -/
theorem test_synPwrup :
    see (exec (.synPwrup ok) { base with poweredDown := true }) (fun t => (t.poweredDown, t.keyed, t.out)) =
      some (false, false, [.synW .power 0, .synApply]) := by decide

/-- The example of R130. -/
theorem test_ccEnable :
    see (exec (.ccEnable ok 1) running) (fun t => (t.ccBand, t.keyed, t.morseRunning, t.out)) =
      some (.band2m, true, false, [.synW .key 0, .synApply, .synW .key 1, .synApply]) := by decide

/-- The example of R131. -/
theorem test_ccDisable :
    see (exec (.ccDisable ok) { base with ccBand := .band2m, keyed := true, winState := .inWindow })
      (fun t => (t.ccBand, t.keyed, t.morseRunning, t.resetFlag)) = some (.none, false, true, true) := by decide

/-- The example of R244. -/
theorem test_reloadBegin :
    see (exec (.reloadBegin ok) { base with keyed := true }) (fun t => (t.mode, t.keyed, t.out)) =
      some (.config, true, []) := by decide

/-- Section 8, the reload row: the eight records. -/
theorem test_reloadEnd :
    see (execOf vectorParams (.reloadEnd ok) { confOf vectorParams with cfgAmpPct := 50, cfgWpm := 20 })
      (fun t => (t.mode, t.morseUnit, t.out)) =
      some (.run, 12, [.synW .power 0, .synApply, .synW .freq 1000000, .synApply, .synW .amp 511, .synApply,
        .synW .key 0, .synApply]) := by decide

/-- Section 8: refused on a claimed bus. -/
theorem test_reloadEnd_busy :
    see (exec (.reloadEnd ok) { conf with claimedByReader := true }) (fun t => (t.mode, t.flags)) =
      some (.config, 0x02) := by decide

/-- The examples of R248. -/
theorem test_cfgWpm :
    see (exec (.cfgWpm ok 60) conf) (fun t => (t.cfgWpm, t.flags)) = some (60, 0) ∧
      see (exec (.cfgWpm ok 4) conf) (fun t => (t.cfgWpm, t.flags)) = some (10, 0x04) := by decide

/-- R249 and R253. -/
theorem test_cfgEnables :
    see (exec (.cfgMorseEn ok false) conf) (fun t => t.cfgMorseEn) = some false ∧
      see (exec (.cfgModEn ok true) conf) (fun t => (t.cfgModEn, t.modulationEnabled)) = some (true, false) := by decide

/-- The examples of R251 and the ends of section 8. -/
theorem test_cfgProgLen :
    see (exec (.cfgProgLen ok 64) conf) (fun t => (t.cfgProgLen, t.flags)) = some (64, 0) ∧
      see (exec (.cfgProgLen ok 65) conf) (fun t => (t.cfgProgLen, t.flags)) = some (3, 0x04) := by decide

/-- Section 8. -/
theorem test_cfgProgSym :
    see (exec (.cfgProgSym ok 63 .wsp) conf) (fun t => (t.prog[63]?, t.flags)) = some (some .wsp, 0) ∧
      see (exec (.cfgProgSym ok 64 .wsp) conf) (fun t => t.flags) = some 0x04 := by decide

/-- Section 8: the ends of the table and of the amplitude word. -/
theorem test_cfgModTab :
    see (execOf vectorParams (.cfgModTab ok 9 1) (confOf vectorParams)) (fun t => t.modTab[9]?) = some (some 1) ∧
      see (execOf vectorParams (.cfgModTab ok 10 0) (confOf vectorParams)) (fun t => t.flags) = some 0x04 ∧
      see (execOf vectorParams (.cfgModTab ok 0 1024) (confOf vectorParams)) (fun t => t.flags) = some 0x04 := by decide

/-- Section 8. -/
theorem test_cfgFreq :
    see (execOf vectorParams (.cfgFreq ok 9999999) (confOf vectorParams)) (fun t => t.cfgFreq) = some 9999999 ∧
      see (execOf vectorParams (.cfgFreq ok 999999) (confOf vectorParams)) (fun t => t.flags) = some 0x04 := by decide

/-- The examples of R256. -/
theorem test_cfgAmp :
    see (exec (.cfgAmp ok 100) conf) (fun t => t.cfgAmpPct) = some 100 ∧
      see (exec (.cfgAmp ok 101) { conf with cfgAmpPct := 7 }) (fun t => (t.cfgAmpPct, t.flags)) = some (7, 0x04) := by
  decide

/-- The examples of R257. -/
theorem test_cfgSlot :
    see (exec (.cfgSlot ok 3 5 2) conf) (fun t => (t.cfgFoxNumber, t.cfgFoxMax, t.cfgTransmitMinute)) = some (3, 5, 2) ∧
      see (exec (.cfgSlot ok 3 5 5) conf) (fun t => (t.cfgFoxMax, t.flags)) = some (1, 0x04) := by decide

/-- Section 8: month 0 and year 100 are refused, 31 February is not (R15). -/
theorem test_cfgWindow :
    see (exec (.cfgWinStart ok { ten with month := 0 }) conf) (fun t => (t.cfgWinStart, t.flags)) = some (ten, 0x04) ∧
      see (exec (.cfgWinStop ok { ten with year := 100 }) conf) (fun t => t.flags) = some 0x04 ∧
      see (exec (.cfgWinStop ok { ten with month := 2, date := 31 }) conf) (fun t => t.flags) = some 0 := by decide

/-- R175 to R178, at load. -/
theorem test_symbols :
    see (exec .dot base) (fun t => (t.unitsRemaining, t.keyed)) = some (1, true) ∧
      see (exec .dash base) (fun t => (t.unitsRemaining, t.keyed)) = some (3, true) ∧
      see (exec .lsp base) (fun t => (t.unitsRemaining, t.keyed)) = some (2, false) ∧
      see (exec .wsp base) (fun t => (t.unitsRemaining, t.keyed)) = some (6, false) := by decide

/-- Section 4: RUN operations in CONFIG mode answer LOCKED, whatever their operand. -/
theorem test_locked :
    see (exec (.synSetamp ok 200) conf) (fun t => t.flags) = some 0x40 ∧
      see (exec (.cfgWpm ok 200) base) (fun t => (t.flags, t.cfgWpm)) = some (0x40, 10) := by decide

/-! ## Functions -/

/-- V1.2 and V7.3. -/
theorem test_slot_functions :
    isOnMinute 0 5 2 57 = true ∧ isOffMinute 0 5 2 58 = true ∧ isOnMinute 0 5 2 58 = false ∧
      nextOnMinute 0 5 2 58 = 2 ∧ nextOnMinute 58 5 2 57 = 0 ∧ isOffMinute 59 4 3 59 = true ∧
      nextOnMinute 0 1 0 59 = 0 := by decide

/-- V1.1 and the values of R167. -/
theorem test_rate :
    convertToUnit vectorParams 10 = some 24 ∧ convertToUnit vectorParams 7 = some 34 ∧
      convertToWpm vectorParams 24 = some 10 ∧ convertToUnit vectorParams 0 = none := by
  decide

/-- The corner cases R152 and R177 name for other parameters: a table of one entry, a letter space of one unit. -/
theorem test_other_parameters :
    see (execOf { vectorParams with modTableLen := 1 } (.tickMod ok)
        { baseOf _ with modulationEnabled := true, keyed := true, modPhase := 3 })
      (fun t => (t.modIndex, t.out)) = some (0, [.synW .amp 100, .synApply]) ∧
    see (execOf { vectorParams with unitsLsp := 1 } .lsp (baseOf _)) (fun t => t.unitsRemaining) = some 0 := by decide

/-- The parameters of the vectors with a table of 11 entries. -/
def elevenParams : Config.Params := { vectorParams with modTableLen := 11 }

/-- R9, R42: a larger table has its entry 10, which CFG_MOD_TAB writes and TICK_MOD reads; index 11 is outside it. -/
theorem test_larger_table :
    see (execOf elevenParams (.cfgModTab ok 10 7) (confOf elevenParams)) (fun t => (t.modTab[10]?, t.flags)) =
      some (some 7, 0) ∧
    see (execOf elevenParams (.cfgModTab ok 11 7) (confOf elevenParams)) (fun t => t.flags) = some 0x04 ∧
    see (execOf elevenParams (.tickMod ok)
        { baseOf elevenParams with modulationEnabled := true, keyed := true, modPhase := 3, modIndex := 9 })
      (fun t => (t.modIndex, t.out)) = some (10, [.synW .amp 110, .synApply]) := by decide

/-- R11, R48: a word is one step of the machine with any parameters, from its own reset. -/
theorem test_step_other_parameters :
    see (stepOf elevenParams ((State.Of.reset elevenParams).withFetchWord 64 0x26C0000000000001))
      (fun t => (t.cfgModEn, t.flags, t.stimulus)) = some (true, 0, []) := by decide

/-- V7.1 rows 2, 6 and 3: the start is inside, the stop outside, the weekday ignored. -/
theorem test_window :
    inWindow ten eleven ten = true ∧ inWindow ten eleven eleven = false ∧
      inWindow ten eleven { ten with weekday := 1 } = true := by decide

/-! ## The assembler (R95, R96): lines and words of 95_test_vectors.md -/

theorem test_assemble_fields :
    assembleLine "CFG_SLOT foxMax=5 foxNumber=0x3 transmitMinute=2 ; any order".toList = some [.cfgSlot ok 3 5 2] := by
  decide +kernel

theorem test_assemble_dateTime :
    (assembleLine "EVAL_WINDOW now=25-06-01 10:00:00 w7 !rtc".toList).map (List.map encode) =
      some [0x0380000E6582A000] := by decide +kernel

/-- Log 21: the seven fields of format D in pairs, in any order, and an empty group of digits. -/
theorem test_assemble_formatD :
    assembleLine "EVAL_WINDOW weekday=7 year=25 month=6 date=1 hour=10 minute=0 second=0 !rtc".toList =
      some [.evalWindow noRtc ten] ∧
    assembleLine "EVAL_WINDOW second=0 second=0 month=6 date=1 hour=10 minute=0 year=25".toList = none ∧
    assembleLine "EVAL_WINDOW now=25-06-01 10::00 w7".toList = none ∧
    assembleLine "EVAL_WINDOW now=25-06-01 10:00:00 w".toList = none ∧
    assembleLine "CFG_WIN_START dt=100-01-01 00:00:00 w1".toList =
      some [.cfgWinStart ok ⟨0, 0, 0, 1, 1, 100, 1⟩] := by decide +kernel

theorem test_assemble_loadProg :
    (assembleLine ("LOADPROG ".toList ++ [Char.ofNat 34, '-', '/', Char.ofNat 34])).map (List.map encode) =
      some [0x24C0000000000002, 0x25C0000000000100, 0x25C0000000000301] := by decide +kernel

theorem test_assemble_repeat :
    assembleLine "TICK_MOD !syn *3".toList = some [.tickMod noSyn, .tickMod noSyn, .tickMod noSyn] ∧
      assembleLine "TICKS 2".toList = some [.tickMorse ok, .tickMorse ok] ∧
      assembleLine "CC_ENABLE band=80m".toList = some [.ccEnable ok 2] := by decide +kernel

theorem test_assemble_refuses :
    assembleLine "EVAL_SLOT minute=64".toList = none ∧ assembleLine "NOP value=1".toList = none := by decide +kernel

/-! ## Witnesses

`witness_<Name>` shows for the obligation `<Name>` concrete states and operands that meet its hypotheses together, one group
for each clause, at the ends of the clause's range. -/

/-- The bus is claimed. -/
def claimed : State := { base with claimedByReader := true }

/-- The modulation engine runs, at the first tick of a cycle. -/
def modulating : State := { base with modulationEnabled := true, keyed := true }

/-- The modulation engine runs, at the write tick. -/
def atWrite : State := { modulating with modPhase := BitVec.ofNat 16 (Config.params.modCycle - 1), modIndex := 9 }

/-- A running engine in a state that meets the invariants, with the next word to take. -/
def live : State := { running with
  cfgFreq := Config.params.freqMin
  modTab := Vector.replicate Config.params.modTableLen 0
  stimulus := [0x01C0000000000000] }

/-- The greatest legal DateTime. -/
def latest : DateTime := ⟨59, 59, 23, 31, 12, 99, 7⟩

/-- The least legal DateTime. -/
def earliest : DateTime := ⟨0, 0, 0, 1, 1, 0, 1⟩

/-- The parameters of the vectors with a table of 11 entries meet the constraints of R9. -/
theorem elevenParams_legal : elevenParams.Legal where
  const_pos := by decide
  wpm_one := by decide
  wpm_const := by decide
  default_range := by decide
  dot_one := by decide
  dash_one := by decide
  trail_one := by decide
  lsp_one := by decide
  wsp_one := by decide
  table_one := by decide
  cycle_two := by decide
  yield_one := by decide
  yield_short := by decide
  fox_range := by decide
  fox_divides := by
    intro m h1 h2
    have hm : m = 1 ∨ m = 2 ∨ m = 3 ∨ m = 4 ∨ m = 5 := by
      simp only [elevenParams, vectorParams] at h1 h2; omega
    rcases hm with rfl | rfl | rfl | rfl | rfl <;> decide
  freq_range := by decide
  amp_range := by
    intro pct h
    change pct ≤ 100 at h
    change (BitVec.ofNat 32 (pct * 1023 / 100)).toNat ≤ 1023
    have hle : pct * 1023 / 100 ≤ 1023 := by omega
    rw [BitVec.toNat_ofNat, Nat.mod_eq_of_lt (by omega)]
    exact hle
  prog_range := by decide
  mod_faster := by decide
  default_width := by decide
  fox_width := by decide
  unit_width := by decide
  units_width := by decide
  table_width := by decide
  cycle_width := by decide

/-- The reset of that machine meets the invariants. -/
theorem elevenParams_reset_inv : (State.Of.reset elevenParams).Inv where
  deferred_claimed := nofun
  down_unkeyed := nofun
  index_in_program := nofun
  rate_below_unit := by decide
  phase_in_cycle := by decide
  mod_index_in_table := by decide
  running_gated := nofun
  running_is_gate := nofun
  image_agrees := nofun
  reset_running := nofun
  config_legal := reset_configLegal elevenParams_legal
  units_range := by decide
  unit_range := by decide

theorem atWrite_phase : atWrite.modPhase.toNat + 1 = Config.params.modCycle := by
  have h1 := Config.params_legal.cycle_two
  have h2 := Config.params_legal.cycle_width
  simp only [atWrite, BitVec.toNat_ofNat]
  omega

theorem base_imageAgrees : base.ImageAgrees where
  committed := by decide
  key := by decide
  power := by decide

theorem live_inv : live.Inv where
  deferred_claimed := by decide
  down_unkeyed := by decide
  index_in_program := by decide
  rate_below_unit := by decide
  phase_in_cycle := by
    have h := Config.params_legal.cycle_two
    show 0 < _
    omega
  mod_index_in_table := by decide
  running_gated := by decide
  running_is_gate := by decide
  image_agrees := fun _ => ⟨by decide, by decide, by decide⟩
  reset_running := by decide
  config_legal :=
    { wpm := by decide
      progLen := by decide
      freq := (freqInRange_iff _ _).2 ⟨BitVec.le_refl _, Config.params_legal.freq_range⟩
      ampPct := by decide
      slot := by decide
      winStart := by decide
      winStop := by decide
      modTab := by
        intro i v h
        have hv : v = 0 := by
          simp only [live, Vector.getElem?_replicate] at h
          split at h
          · exact (Option.some.inj h).symm
          · cases h
        subst hv
        bv_omega }
  units_range := by decide
  unit_range := by decide

theorem witness_DecodeOfEncodeIsTheInstruction :
    (Instr.cfgSlot noRtc 15 0 15).isOperation = true ∧ Instr.wsp.isSymbol = true := by decide

theorem witness_EncodeOfDecodeIsTheWord : decode 0x04C000000000003F = .ok (.evalSlot ok 63) := by decide

theorem witness_DecodeSelectsByMaskAndMatch :
    (∃ row ∈ opcodeRows, (0x04C000000000003B : StimWord) &&& row.mask = row.pattern) ∧
      decode 0x04C000000000003B = .ok (.evalSlot ok 59) := by decide

theorem witness_BytesAreBigEndian :
    decode 0x0000000000000000 = .ok (.nop ⟨false, false⟩) ∧ decode 0x07C0000000000000 = .error (.unassignedOpcode 0x07) := by
  decide

theorem witness_StepRunsTheDecodedOperation :
    ∃ t, ({ base with stimulus := [0x12C0000000000000, 0] } : State).stimulus = 0x12C0000000000000 :: [0] ∧
      decode 0x12C0000000000000 = .ok (.synKeyon ok) ∧
      step { base with stimulus := [0x12C0000000000000, 0] } = .next t := ⟨_, rfl, by decide, rfl⟩

theorem witness_FetchTickRunsTheSymbol : ∀ s ∈ [running, { running with symbolIndex := 2 }],
    s.mode = .run ∧ s.morseRunning = true ∧ s.resetFlag = false ∧ s.cfgMorseEn = true ∧ s.rateCount = 0 ∧
      s.unitsRemaining = 0 ∧ s.symbolIndex.toNat < s.cfgProgLen.toNat ∧
      (s.prog[s.symbolIndex.toNat]? = some .dash ∨ s.prog[s.symbolIndex.toNat]? = some .wsp) := by decide

theorem witness_IllegalWordOnlySetsIllegal :
    ({ base with stimulus := [0x01C0000000000001] } : State).stimulus = 0x01C0000000000001 :: [] ∧
      ∀ row ∈ opcodeRows, (0x01C0000000000001 : StimWord) &&& row.mask ≠ row.pattern := by decide

theorem witness_NoStimulusNoStep : base.stimulus = [] := rfl

theorem witness_ModesAcceptAndLock :
    ((Instr.cfgWpm ok 9).isOperation = true ∧ accepts base.mode (.cfgWpm ok 9) = false) ∧
      (accepts base.mode (.nop ok) = true ∧ ∃ t, exec (.nop ok) base = .next t) ∧
      (∃ t, exec (.reloadBegin ok) base = .next t ∧ t.mode ≠ base.mode) ∧
      (∃ t, exec (.reloadEnd ok) conf = .next t ∧ t.mode ≠ conf.mode) :=
  ⟨by decide, ⟨by decide, _, rfl⟩, ⟨_, rfl, by decide⟩, ⟨_, rfl, by decide⟩⟩

theorem witness_ReloadEndReinitialises :
    base.mode = .run ∧ (conf.mode = .config ∧ ({ conf with claimedByReader := true } : State).claimedByReader = true) ∧
      (conf.claimedByReader = false ∧ noSyn.synOk = false) ∧ (ok.synOk = true ∧ conf.cfgWpm ≠ 0) := by decide

theorem witness_CfgWpmStoresOrFallsBack :
    conf.mode = .config ∧ (5 ≤ (5#8).toNat ∧ (5#8).toNat ≤ 60) ∧ (5 ≤ (60#8).toNat ∧ (60#8).toNat ≤ 60) ∧
      ¬ (5 ≤ (4#8).toNat ∧ (4#8).toNat ≤ 60) ∧ ¬ (5 ≤ (61#8).toNat ∧ (61#8).toNat ≤ 60) := by decide

theorem witness_CfgEnablesStore : conf.mode = .config := rfl

theorem witness_CfgProgWritesLengthAndSymbols :
    conf.mode = .config ∧ (1 ≤ (1#16).toNat ∧ (1#16).toNat ≤ 64) ∧ (1 ≤ (64#16).toNat ∧ (64#16).toNat ≤ 64) ∧
      (0#16).toNat < 1 ∧ 64 < (65#16).toNat ∧ (63#8).toNat < 64 ∧ 64 ≤ (64#8).toNat := by decide

theorem witness_CfgModTabStoresOneEntry :
    (elevenParams.Legal ∧ (confOf elevenParams).mode = .config ∧
      ((10#8).toNat < elevenParams.modTableLen ∧ 1023 ≤ elevenParams.ampWordMax) ∧
      elevenParams.modTableLen ≤ (11#8).toNat ∧ elevenParams.ampWordMax < 1024) ∧
    conf.mode = .config ∧ ((9#8).toNat < 10 ∧ Config.params.ampWordMax ≤ Config.params.ampWordMax) ∧
      (10 ≤ (10#8).toNat ∨ Config.params.ampWordMax < 0) :=
  ⟨⟨elevenParams_legal, rfl, by decide, by decide, by decide⟩, rfl, ⟨by decide, BitVec.le_refl _⟩, .inl (by decide)⟩

theorem witness_CfgFreqAndAmpStoreLegalValues : conf.mode = .config := rfl

theorem witness_CfgSlotWritesAllOrNothing :
    conf.mode = .config ∧ ((5#4).toNat ≤ 5 ∧ 1 ≤ (5#4).toNat ∧ (5#4).toNat ≤ 5 ∧ (4#4).toNat < (5#4).toNat) ∧
      (1 ≤ (1#4).toNat ∧ (0#4).toNat < (1#4).toNat) ∧
      5 < (6#4).toNat ∧ (0#4).toNat < 1 ∧ (5#4).toNat ≤ (5#4).toNat := by decide

theorem witness_CfgWindowStoresLegalDateTimes :
    conf.mode = .config ∧ (∀ d ∈ [earliest, latest], d.second.toNat ≤ 59 ∧ d.minute.toNat ≤ 59 ∧ d.hour.toNat ≤ 23 ∧
        1 ≤ d.date.toNat ∧ d.date.toNat ≤ 31 ∧ 1 ≤ d.month.toNat ∧ d.month.toNat ≤ 12 ∧ d.year.toNat ≤ 99 ∧
        1 ≤ d.weekday.toNat ∧ d.weekday.toNat ≤ 7) ∧
      (∀ d ∈ [{ latest with second := 60 }, { latest with minute := 60 }, { latest with hour := 24 },
        { latest with date := 0 }, { latest with month := 0 }, { latest with month := 13 }, { latest with year := 100 },
        { latest with weekday := 0 }], 59 < d.second.toNat ∨ 59 < d.minute.toNat ∨ 23 < d.hour.toNat ∨ d.date = 0 ∨
        d.month = 0 ∨ 12 < d.month.toNat ∨ 99 < d.year.toNat ∨ d.weekday = 0) := by decide

theorem witness_ReaderReleaseDrainsTheSlot :
    base.deferred = .none ∧
      (∃ s ∈ [{ claimed with deferred := .turnOn, poweredDown := true }], s.deferred = .turnOn ∧ s.poweredDown = true) ∧
      (∃ s ∈ [{ claimed with deferred := .turnOn }], s.deferred = .turnOn ∧ s.poweredDown = false) ∧
      (∃ s ∈ [{ claimed with deferred := .turnOff }], s.deferred = .turnOff) ∧
      noSyn.synOk = false ∧ ok.synOk = true := by decide

theorem witness_SynKeyonKeysOrDefers :
    (∃ s ∈ [{ base with poweredDown := true }], s.mode = .run ∧ s.poweredDown = true) ∧
      (claimed.mode = .run ∧ claimed.poweredDown = false ∧ claimed.claimedByReader = true) ∧
      (base.mode = .run ∧ base.poweredDown = false ∧ base.claimedByReader = false) ∧
      noSyn.synOk = false ∧ ok.synOk = true := by decide

theorem witness_SynKeyoffKeysOrDefers :
    (claimed.mode = .run ∧ claimed.claimedByReader = true) ∧ (base.mode = .run ∧ base.claimedByReader = false) ∧
      noSyn.synOk = false ∧ ok.synOk = true := by decide

theorem witness_OnlyTheLastDeniedRequestRuns :
    base.mode = .run ∧ base.poweredDown = false ∧ base.deferred = .none ∧ ok.synOk = true := by decide

theorem witness_SynSetWritesTheImage : base.mode = .run := rfl

theorem witness_SynPowerDownAndUp :
    (∃ s ∈ [{ base with ccBand := .band80m }], s.mode = .run ∧ s.ccBand ≠ .none) ∧
      (claimed.mode = .run ∧ claimed.ccBand = .none ∧ claimed.claimedByReader = true) ∧
      (∃ s ∈ [base], s.mode = .run ∧ s.ccBand = .none ∧ s.claimedByReader = false ∧ s.keyed = false) ∧
      (∃ s ∈ [{ base with keyed := true }], s.ccBand = .none ∧ s.claimedByReader = false ∧ s.keyed = true) ∧
      noSyn.synOk = false ∧ ok.synOk = true := by decide

theorem witness_CcEnableForcesTheCarrier :
    (base.mode = .run ∧ (3#2 = 0#2 ∨ 3#2 = 3#2 ∨ base.poweredDown = true)) ∧
      ((2#2 = 1#2 ∨ 2#2 = 2#2) ∧ claimed.poweredDown = false ∧ claimed.claimedByReader = true) ∧
      ((1#2 = 1#2 ∨ 1#2 = 2#2) ∧ base.poweredDown = false ∧ base.claimedByReader = false) ∧
      noSyn.synOk = false ∧ ok.synOk = true := by decide

theorem witness_CcDisableRestoresKeying :
    (base.mode = .run ∧ base.ccBand = .none) ∧
      (∃ s ∈ [{ claimed with ccBand := .band2m }], s.ccBand ≠ .none ∧ s.claimedByReader = true) ∧
      (∃ s ∈ [{ base with ccBand := .band2m, winState := .inWindow }], s.ccBand ≠ .none ∧ s.claimedByReader = false ∧
        s.morseRunning = false ∧ s.winState = .inWindow ∧ (s.cfgFoxNumber = 0 ∨ s.withinSlot = true)) ∧
      (∃ s ∈ [{ fox with ccBand := .band2m }], s.ccBand ≠ .none ∧ s.claimedByReader = false ∧ s.morseRunning = false ∧
        ¬ (s.winState = .inWindow ∧ (s.cfgFoxNumber = 0 ∨ s.withinSlot = true))) ∧
      noSyn.synOk = false ∧ ok.synOk = true := by decide

theorem witness_TickModIdleAndPhase :
    (base.mode = .run ∧ (base.modulationEnabled = false ∨ base.keyed = false)) ∧
      (modulating.mode = .run ∧ modulating.modulationEnabled = true ∧ modulating.keyed = true ∧
        modulating.modPhase.toNat + 1 < Config.params.modCycle) := by
  have h := Config.params_legal.cycle_two
  refine ⟨by decide, by decide, by decide, by decide, ?_⟩
  show 0 + 1 < _
  omega

theorem witness_TickModWritesOneSample :
    atWrite.mode = .run ∧ atWrite.modulationEnabled = true ∧ atWrite.keyed = true ∧
      atWrite.modPhase.toNat + 1 = Config.params.modCycle ∧ atWrite.modIndex.toNat < 10 ∧
      atWrite.modTab[(atWrite.modIndex.toNat + 1) % 10]? = some 100 ∧ atWrite.claimedByReader = false ∧
      ({ atWrite with claimedByReader := true } : State).claimedByReader = true ∧ noSyn.synOk = false ∧ ok.synOk = true :=
  ⟨rfl, rfl, rfl, atWrite_phase, by decide, by decide, rfl, rfl, rfl, rfl⟩

theorem witness_ModulationIndexLaw :
    modulating.mode = .run ∧ modulating.modulationEnabled = true ∧ modulating.keyed = true ∧ modulating.modPhase = 0 ∧
      modulating.modIndex.toNat < 10 := by decide

theorem witness_SymbolsAtLoad :
    (∃ s ∈ [{ base with poweredDown := true }], s.poweredDown = true) ∧
      (claimed.poweredDown = false ∧ claimed.claimedByReader = true) ∧
      (∃ s ∈ [{ base with resp := noSyn }], s.poweredDown = false ∧ s.claimedByReader = false ∧ s.resp.synOk = false) ∧
      (base.poweredDown = false ∧ base.claimedByReader = false ∧ base.resp.synOk = true) ∧
      ((Instr.dash, 3#4) = (.dot, 1#4) ∨ (Instr.dash, 3#4) = (.dash, 3#4)) := by decide

theorem witness_TickMorseStoppedOrCounting :
    (base.mode = .run ∧ base.morseRunning = false) ∧
      (∀ s ∈ [{ running with rateCount := 1 }, { running with rateCount := 23 }],
        s.mode = .run ∧ s.morseRunning = true ∧ s.resetFlag = false ∧ s.cfgMorseEn = true ∧ s.rateCount ≠ 0) := by decide

theorem witness_RestartBeginsAFreshWord :
    ∃ s ∈ [{ running with resetFlag := true }], s.mode = .run ∧ s.morseRunning = true ∧ s.resetFlag = true := by decide

/-- The engine runs with Morse mode disabled. -/
def steady : State := { running with cfgMorseEn := false }

theorem witness_MorseDisabledHoldsTheCarrier :
    (∃ s ∈ [{ steady with keyed := true }],
      s.mode = .run ∧ s.morseRunning = true ∧ s.resetFlag = false ∧ s.cfgMorseEn = false ∧ s.keyed = true) ∧
      (∃ s ∈ [{ steady with poweredDown := true }], s.mode = .run ∧ s.morseRunning = true ∧ s.resetFlag = false ∧
        s.cfgMorseEn = false ∧ s.keyed = false ∧ s.poweredDown = true) ∧
      (∃ s ∈ [{ steady with claimedByReader := true }], s.mode = .run ∧ s.morseRunning = true ∧ s.resetFlag = false ∧
        s.cfgMorseEn = false ∧ s.keyed = false ∧ s.poweredDown = false ∧ s.claimedByReader = true) ∧
      (steady.mode = .run ∧ steady.morseRunning = true ∧ steady.resetFlag = false ∧ steady.cfgMorseEn = false ∧
        steady.keyed = false ∧ steady.poweredDown = false ∧ steady.claimedByReader = false) ∧
      noSyn.synOk = false ∧ ok.synOk = true := by decide

theorem witness_UnitStepCountsDown :
    (∀ s ∈ [{ running with unitsRemaining := 1 }, { running with unitsRemaining := 15, curIsMark := true }],
      s.mode = .run ∧ s.morseRunning = true ∧ s.resetFlag = false ∧ s.cfgMorseEn = true ∧ s.rateCount = 0 ∧
        (1 : BitVec 8) = (if 1 = s.morseUnit.toNat then 0 else 1) ∧ s.unitsRemaining ≠ 0 ∧
        (s.unitsRemaining ≠ 1 ∨ s.curIsMark = false)) ∧
      (∀ s ∈ [{ running with unitsRemaining := 1, curIsMark := true },
          { running with unitsRemaining := 1, curIsMark := true, claimedByReader := true }],
        s.unitsRemaining = 1 ∧ s.curIsMark = true ∧ s.morseRunning = true) ∧
      running.claimedByReader = false ∧ noSyn.synOk = false ∧ ok.synOk = true := by decide

theorem witness_NoValueOutsideTheRoms :
    (∃ s ∈ [{ running with symbolIndex := 3 }], s.mode = .run ∧ s.morseRunning = true ∧ s.resetFlag = false ∧
      s.cfgMorseEn = true ∧ s.rateCount = 0 ∧ s.unitsRemaining = 0 ∧ s.cfgProgLen.toNat ≤ s.symbolIndex.toNat) ∧
      (atWrite.mode = .run ∧ atWrite.modulationEnabled = true ∧ atWrite.keyed = true ∧
        atWrite.modPhase.toNat + 1 = Config.params.modCycle ∧ atWrite.claimedByReader = false ∧ ok.synOk = true ∧
        10 ≤ ({ atWrite with modIndex := 10 } : State).modIndex.toNat ∧
        ({ atWrite with modIndex := 254 } : State).modIndex.toNat < 255) ∧
      (∃ s ∈ [{ conf with cfgWpm := 0 }], s.mode = .config ∧ s.claimedByReader = false ∧ s.cfgWpm = 0) ∧
      (∃ s ∈ [{ fox with cfgFoxMax := 0 }], s.mode = .run ∧ (59#6).toNat ≤ 59 ∧ (0#6).toNat ≤ 59 ∧ s.cfgFoxMax = 0) :=
  ⟨by decide, ⟨rfl, rfl, rfl, atWrite_phase, rfl, rfl, by decide, by decide⟩, by decide, by decide⟩

theorem witness_CursorIgnoresTheBus : running.cfgMorseEn = true ∧ ∃ t, exec (.tickMorse ok) running = .next t :=
  ⟨rfl, _, rfl⟩

theorem witness_TimelineOfAProgram : ∃ s ∈ [{ running with resetFlag := true }],
    s.mode = .run ∧ s.morseRunning = true ∧ s.resetFlag = true ∧ s.cfgMorseEn = true ∧ s.claimedByReader = false ∧
      s.poweredDown = false ∧ 1 ≤ s.cfgProgLen.toNat ∧ s.cfgProgLen.toNat ≤ 64 ∧ 1 ≤ s.morseUnit.toNat ∧
      (s.keyed = false ∨ 1 ≤ keyedUnits Config.params (s.symbolNumber 0)) := by decide

theorem witness_EvalWindowUnchanged :
    (base.mode = .run ∧ ({ ten with month := 13 } : DateTime).legal Config.params = false) ∧
      (ten.legal Config.params = true ∧ ∀ s ∈ [running, { running with winAlarmRetry := true }],
        s.mode = .run ∧ s.winState = (if inWindow s.cfgWinStart s.cfgWinStop ten then .inWindow else .outOfWindow)) ∧
      (eleven.legal Config.params = true ∧ ∃ s ∈ [{ base with winState := .outOfWindow, winAlarmRetry := true }], s.mode = .run ∧
        s.winState = (if inWindow s.cfgWinStart s.cfgWinStop eleven then .inWindow else .outOfWindow)) ∧
      noRtc.rtcOk = false ∧ ok.rtcOk = true := by decide

theorem witness_EvalWindowEnters :
    base.mode = .run ∧ ten.legal Config.params = true ∧ inWindow base.cfgWinStart base.cfgWinStop ten = true ∧
      base.winState ≠ .inWindow ∧ base.morseRunning = false := by decide

theorem witness_EvalWindowLeaves :
    (running.mode = .run ∧ eleven.legal Config.params = true ∧ inWindow running.cfgWinStart running.cfgWinStop eleven = false ∧
        running.winState ≠ .outOfWindow ∧ running.morseRunning = true ∧ running.claimedByReader = false) ∧
      ({ running with claimedByReader := true } : State).claimedByReader = true ∧
      (fox.mode = .run ∧ inWindow fox.cfgWinStart fox.cfgWinStop eleven = false ∧ fox.winState ≠ .outOfWindow ∧
        fox.morseRunning = false) ∧ noSyn.synOk = false ∧ ok.synOk = true := by decide

theorem witness_EvalSlotOnMinute :
    (∀ p ∈ [(7#6, fox), (59#6, { fox with cfgTransmitMinute := 4 })],
      p.2.mode = .run ∧ p.1.toNat ≤ 59 ∧ p.2.cfgFoxMax ≠ 0 ∧ p.2.onMinute p.1.toNat = true ∧
        p.2.morseRunning = p.2.gate ∧ p.2.withinSlot = false) ∧
      (∃ s ∈ [{ fox with withinSlot := true, morseRunning := true }],
        s.onMinute 7 = true ∧ s.morseRunning = s.gate ∧ s.withinSlot = true) := by decide

theorem witness_EvalSlotOffMinute :
    (∀ p ∈ [(8#6, { fox with withinSlot := true, morseRunning := true }),
        (0#6, { fox with cfgTransmitMinute := 4, withinSlot := true, morseRunning := true }),
        (8#6, { fox with withinSlot := true, morseRunning := true, claimedByReader := true })],
      p.2.mode = .run ∧ p.1.toNat ≤ 59 ∧ p.2.cfgFoxMax ≠ 0 ∧ p.2.onMinute p.1.toNat = false ∧
        p.2.offMinute p.1.toNat = true ∧ p.2.morseRunning = p.2.gate ∧ p.2.withinSlot = true ∧
        p.2.morseRunning = true ∧ p.2.cfgFoxNumber ≠ 0) ∧
      (fox.onMinute 8 = false ∧ fox.offMinute 8 = true ∧ fox.morseRunning = fox.gate ∧ fox.withinSlot = false) ∧
      noSyn.synOk = false ∧ ok.synOk = true := by decide

theorem witness_EvalSlotInvalidOrMisaligned :
    fox.mode = .run ∧ 59 < (60#6).toNat ∧ fox.cfgFoxMax ≠ 0 ∧
      (∀ m ∈ [0#6, 59#6], m.toNat ≤ 59 ∧ fox.onMinute m.toNat = false ∧ fox.offMinute m.toNat = false) ∧
      noRtc.rtcOk = false ∧ ok.rtcOk = true := by decide

theorem witness_NextOnMinuteIsTheLeast :
    (1 ≤ 5 ∧ 5 ≤ 5 ∧ 4 < 5 ∧ 59 ≤ 59 ∧ 59 ≤ 59) ∧ (1 ≤ 1 ∧ 1 ≤ 5 ∧ 0 < 1 ∧ 0 ≤ 59 ∧ 0 ≤ 59) := by decide

theorem witness_WindowOrderIsLexicographic :
    ten.lexLe ten = true ∧ ten.lexLe eleven = true ∧ ten.lexLt eleven = true ∧ inWindow ten eleven ten = true := by decide

theorem witness_SchedulerLeavesTheForcedCarrier :
    (∃ s ∈ [{ base with ccBand := .band2m, keyed := true }], s.ccBand ≠ .none ∧ s.morseRunning = false) ∧
      (∃ t, exec (.evalWindow ok ten) { base with ccBand := .band2m, keyed := true } = .next t) ∧
      (∃ t, exec (.evalSlot ok 0) { base with ccBand := .band2m, keyed := true } = .next t) :=
  ⟨by decide, ⟨_, rfl⟩, ⟨_, rfl⟩⟩

theorem witness_RateRoundTrip :
    Config.params.Legal ∧ (Config.params.wpmMin ≤ 5 ∧ 5 ≤ Config.params.wpmMax) ∧
      (Config.params.wpmMin ≤ 60 ∧ 60 ≤ Config.params.wpmMax) ∧ (5 ≤ 5 ∧ 5 ≤ 60) ∧ (5 ≤ 60 ∧ 60 ≤ 60) :=
  ⟨Config.params_legal, by decide, by decide, by decide, by decide⟩

theorem witness_InvariantKeptByEveryStep :
    (elevenParams.Legal ∧ (State.Of.reset elevenParams).Inv ∧
      ∃ t, stepOf elevenParams (State.Of.reset elevenParams) = .next t) ∧ live.Inv ∧ ∃ t, step live = .next t :=
  ⟨⟨elevenParams_legal, elevenParams_reset_inv, _, rfl⟩, live_inv, _, rfl⟩

theorem witness_InvariantHoldsAtReset : elevenParams.Legal := elevenParams_legal

theorem witness_InvariantStatesNeverStop :
    (elevenParams.Legal ∧ (State.Of.reset elevenParams).Inv) ∧ live.Inv :=
  ⟨⟨elevenParams_legal, elevenParams_reset_inv⟩, live_inv⟩

theorem witness_ChipImageAgreesAfterReload :
    (∃ t, conf.mode = .config ∧ exec (.reloadEnd ok) conf = .next t ∧ t.mode = .run) ∧
      (base.ImageAgrees ∧ ∃ t, exec (.synKeyon ok) base = .next t) :=
  ⟨⟨_, rfl, rfl, rfl⟩, base_imageAgrees, _, rfl⟩

theorem witness_ClaimedBusIsNotDriven :
    (Instr.synKeyon ok).isOperation = true ∧ (∀ r, Instr.synKeyon ok ≠ .readerRelease r) ∧
      claimed.claimedByReader = true ∧ ∃ t, exec (.synKeyon ok) claimed = .next t :=
  ⟨rfl, nofun, rfl, _, rfl⟩

theorem witness_RecordsExplainTheChips :
    (Instr.synKeyon ok).isOperation = true ∧ ∃ t, exec (.synKeyon ok) base = .next t := ⟨rfl, _, rfl⟩

theorem witness_RecordsCarryLegalValues :
    live.Inv ∧ (Instr.tickMorse ok).isOperation = true ∧ ∃ t, exec (.tickMorse ok) live = .next t :=
  ⟨live_inv, rfl, _, rfl⟩

theorem witness_LockedAndIllegalAreExclusive :
    (Instr.synKeyon ok).isOperation = true ∧
      ∃ t, exec (.synKeyon ok) conf = .next t ∧ Flag.locked.isSet t.flags = true := ⟨rfl, _, rfl, by decide⟩

theorem witness_EarlierResultsAreNotRead : (Instr.tickMorse ok).isOperation = true := rfl

theorem witness_KeyedChangesWithItsRecord :
    (Instr.synKeyon ok).isOperation = true ∧ ∃ t, exec (.synKeyon ok) base = .next t ∧ t.keyed ≠ base.keyed :=
  ⟨rfl, _, rfl, by decide⟩

theorem witness_ConfigurationIsReadOnlyInRun : base.mode = .run ∧ ∃ t, exec (.cfgWpm ok 20) base = .next t :=
  ⟨rfl, _, rfl⟩

theorem witness_WorkingRegistersHaveOwners :
    (Instr.nop ok).isOperation = true ∧ (∃ t, exec (.nop ok) base = .next t) ∧ (∀ r, Instr.nop ok ≠ .reloadEnd r) ∧
      (∀ r, Instr.nop ok ≠ .tickMorse r) ∧ (∀ r, Instr.nop ok ≠ .tickMod r) ∧ (∀ r d, Instr.nop ok ≠ .evalWindow r d) ∧
      (∀ r m, Instr.nop ok ≠ .evalSlot r m) ∧ (∀ r, Instr.nop ok ≠ .readerClaim r) ∧
      (∀ r, Instr.nop ok ≠ .readerRelease r) ∧ (∀ r b, Instr.nop ok ≠ .ccEnable r b) ∧
      (∀ r, Instr.nop ok ≠ .ccDisable r) ∧ (∀ r, Instr.nop ok ≠ .synPwrdown r) ∧ (∀ r, Instr.nop ok ≠ .synPwrup r) ∧
      (∀ r, Instr.nop ok ≠ .synKeyon r) ∧ (∀ r, Instr.nop ok ≠ .synKeyoff r) :=
  ⟨rfl, ⟨_, rfl⟩, nofun, nofun, nofun, nofun, nofun, nofun, nofun, nofun, nofun, nofun, nofun, nofun, nofun⟩

end Sys2Proof.Tests
end

/-! PROOF. A step takes the head of `stimulus` and runs what it decodes to, and no operation touches the waiting words
(spec/00_scope.md R11, spec/30_encoding.md R80; log 1). The second half is a frame law of `exec`: each update of the state
keeps `stimulus`, so each operation does. -/

namespace Sys2Proof.Machine

variable {p : Config.Params}

/-! ## The step -/

/-- A step on a word that decodes runs the operation on the state without the word (R11). -/
theorem stepBy_of_decode {run : Instr → State.Of p → Host.Outcome (State.Of p) Fault Refusal} {s : State.Of p}
    {w : StimWord} {rest : List StimWord} {i : Instr} (hs : s.stimulus = w :: rest) (hd : decode w = .ok i) :
    stepBy run s = run i { s with stimulus := rest } := by
  simp [stepBy, State.Of.fetch, hs, hd]

/-! ## Operations that answer a next state keep the waiting words -/

/-- If `o` answers a next state, the words still to come are those of `s`. -/
def KeepsStimulus (s : State.Of p) (o : Host.Outcome (State.Of p) Fault Refusal) : Prop :=
  ∀ t, o = .next t → t.stimulus = s.stimulus

@[simp] theorem keepsStimulus_next (s t : State.Of p) : KeepsStimulus s (.next t) ↔ t.stimulus = s.stimulus := by
  simp [KeepsStimulus]

@[simp] theorem keepsStimulus_fault (s : State.Of p) (e : Fault) : KeepsStimulus s (.fault e) := by
  simp [KeepsStimulus]

@[simp] theorem keepsStimulus_refused (s : State.Of p) (e : Refusal) : KeepsStimulus s (.refused e) := by
  simp [KeepsStimulus]

theorem KeepsStimulus.andThen {s : State.Of p} {o : Host.Outcome (State.Of p) Fault Refusal}
    {f : State.Of p → State.Of p} (ho : KeepsStimulus s o) (hf : ∀ u, (f u).stimulus = u.stimulus) :
    KeepsStimulus s (andThen o f) := by
  intro t ht
  obtain ⟨u, hu, rfl⟩ := andThen_next.1 ht
  rw [hf, ho u hu]

/-- The mode check keeps the words where the body does (R283). -/
theorem KeepsStimulus.inRun {r : Resp} {s : State.Of p} {body : State.Of p → Host.Outcome (State.Of p) Fault Refusal}
    (hb : ∀ u, KeepsStimulus u (body u)) : KeepsStimulus s (inRun r s body) := by
  intro t ht
  obtain ⟨-, hbody⟩ | ⟨-, rfl⟩ := inRun_next ht
  · rw [hb (s.startOp r) t hbody, startOp_stimulus]
  · rfl

theorem KeepsStimulus.inConfig {r : Resp} {s : State.Of p}
    {body : State.Of p → Host.Outcome (State.Of p) Fault Refusal} (hb : ∀ u, KeepsStimulus u (body u)) :
    KeepsStimulus s (inConfig r s body) := by
  intro t ht
  obtain ⟨-, hbody⟩ | ⟨-, rfl⟩ := inConfig_next ht
  · rw [hb (s.startOp r) t hbody, startOp_stimulus]
  · rfl

/-- The mode check around a body that always answers a next state (R283). -/
theorem KeepsStimulus.inRun_next {r : Resp} {s : State.Of p} {f : State.Of p → State.Of p}
    (hf : ∀ u, (f u).stimulus = u.stimulus) : KeepsStimulus s (Machine.inRun r s fun u => .next (f u)) :=
  .inRun fun u => (keepsStimulus_next u _).2 (hf u)

theorem KeepsStimulus.inConfig_next {r : Resp} {s : State.Of p} {f : State.Of p → State.Of p}
    (hf : ∀ u, (f u).stimulus = u.stimulus) : KeepsStimulus s (Machine.inConfig r s fun u => .next (f u)) :=
  .inConfig fun u => (keepsStimulus_next u _).2 (hf u)

/-! ## The shared operations -/

@[simp] theorem keyOn_stimulus (s : State.Of p) : s.keyOn.stimulus = s.stimulus := by rw [keyOn_frame]

@[simp] theorem keyOff_stimulus (s : State.Of p) : s.keyOff.stimulus = s.stimulus := by rw [keyOff_frame]

@[simp] theorem drainDeferred_stimulus (s : State.Of p) : s.drainDeferred.stimulus = s.stimulus := by
  obtain ⟨-, e⟩ | ⟨-, e⟩ | ⟨-, e⟩ := drainDeferred_cases s <;> simp [e]

theorem gated_stimulus {act : State.Of p → State.Of p} (ha : ∀ u, (act u).stimulus = u.stimulus) (s : State.Of p) :
    (s.gated act).stimulus = s.stimulus := by
  obtain ⟨-, e⟩ | ⟨-, -, e⟩ | ⟨-, -, e⟩ := gated_cases act s <;> simp [e, ha]

@[simp] theorem gateUpdate_stimulus (s : State.Of p) : s.gateUpdate.stimulus = s.stimulus := by
  obtain ⟨-, -, e⟩ | ⟨-, -, e⟩ | ⟨-, e⟩ := gateUpdate_cases s <;> simp [e]

@[simp] theorem rtcArm1_stimulus (dt : DateTime) (s : State.Of p) : (s.rtcArm1 dt).stimulus = s.stimulus := by
  obtain ⟨-, e⟩ | ⟨-, e⟩ := rtcArm1_cases dt s <;> simp [e]

@[simp] theorem rtcArm2_stimulus (m : Nat) (s : State.Of p) : (s.rtcArm2 m).stimulus = s.stimulus := by
  obtain ⟨-, e⟩ | ⟨-, e⟩ := rtcArm2_cases m s <;> simp [e]

/-! ## The configuration writes -/

theorem setCfgWpm_stimulus (value : BitVec 8) (s : State.Of p) : (setCfgWpm value s).stimulus = s.stimulus := by
  unfold setCfgWpm; split <;> rfl

theorem setProgLen_stimulus (len : BitVec 16) (s : State.Of p) : (setProgLen len s).stimulus = s.stimulus := by
  unfold setProgLen; split <;> rfl

theorem setProgSym_stimulus (index : BitVec 8) (sym : Symbol) (s : State.Of p) :
    (setProgSym index sym s).stimulus = s.stimulus := by
  unfold setProgSym; split <;> rfl

theorem setModTab_stimulus (index : BitVec 8) (word : Word) (s : State.Of p) :
    (setModTab index word s).stimulus = s.stimulus := by
  unfold setModTab; split <;> rfl

theorem setCfgFreq_stimulus (hz : Word) (s : State.Of p) : (setCfgFreq hz s).stimulus = s.stimulus := by
  unfold setCfgFreq; split <;> rfl

theorem setCfgAmp_stimulus (value : BitVec 8) (s : State.Of p) : (setCfgAmp value s).stimulus = s.stimulus := by
  unfold setCfgAmp; split <;> rfl

theorem setSlot_stimulus (foxNumber foxMax transmitMinute : BitVec 4) (s : State.Of p) :
    (setSlot foxNumber foxMax transmitMinute s).stimulus = s.stimulus := by
  unfold setSlot; split <;> rfl

theorem setWinStart_stimulus (dt : DateTime) (s : State.Of p) : (setWinStart dt s).stimulus = s.stimulus := by
  unfold setWinStart; split <;> rfl

theorem setWinStop_stimulus (dt : DateTime) (s : State.Of p) : (setWinStop dt s).stimulus = s.stimulus := by
  unfold setWinStop; split <;> rfl

/-! ## The synthesizer driver -/

theorem setFrequency_stimulus (hz : Word) (s : State.Of p) : (setFrequency hz s).stimulus = s.stimulus := by
  unfold setFrequency
  split
  · rfl
  · exact gated_stimulus (synTxn_stimulus .freq hz) s

theorem setAmplitude_stimulus (value : BitVec 8) (s : State.Of p) : (setAmplitude value s).stimulus = s.stimulus := by
  unfold setAmplitude
  split
  · rfl
  · exact gated_stimulus (synTxn_stimulus .amp _) s

theorem powerDownNow_stimulus (s : State.Of p) : (powerDownNow s).stimulus = s.stimulus := by
  cases hk : s.keyed <;> simp [powerDownNow, hk]

theorem execSynPwrdown_keepsStimulus (r : Resp) (s : State.Of p) : KeepsStimulus s (execSynPwrdown r s) :=
  .inRun_next fun u => by
    split
    · rfl
    · exact gated_stimulus powerDownNow_stimulus u

theorem enableCarrierNow_stimulus (band : CcBand) (s : State.Of p) :
    (enableCarrierNow band s).stimulus = s.stimulus := by
  simp [enableCarrierNow]

theorem execCcEnable_keepsStimulus (r : Resp) (band : BitVec 2) (s : State.Of p) :
    KeepsStimulus s (execCcEnable r band s) :=
  .inRun_next fun u => by
    rcases bandOfOperand band with _ | b
    · rfl
    · cases u.poweredDown with
      | true => rfl
      | false => exact gated_stimulus (enableCarrierNow_stimulus b) u

theorem disableCarrierNow_stimulus (s : State.Of p) : (disableCarrierNow s).stimulus = s.stimulus := by
  simp [disableCarrierNow]

theorem execCcDisable_keepsStimulus (r : Resp) (s : State.Of p) : KeepsStimulus s (execCcDisable r s) :=
  .inRun_next fun u => by
    split
    · rfl
    · exact gated_stimulus disableCarrierNow_stimulus u

/-! ## The modulation engine -/

theorem modWrite_keepsStimulus (s : State.Of p) : KeepsStimulus s (modWrite s) := by
  unfold modWrite
  dsimp only
  split
  · simp
  · split
    · simp
    · split <;> simp

theorem tickModBody_keepsStimulus (s : State.Of p) : KeepsStimulus s (tickModBody s) := by
  unfold tickModBody
  split
  · simp
  · refine KeepsStimulus.andThen ?_ fun _ => rfl
    split
    · exact modWrite_keepsStimulus { s with busAvailable := _ }
    · simp

/-! ## The Morse engine -/

@[simp] theorem loadSymbol_stimulus (sym : Symbol) (s : State.Of p) : (loadSymbol sym s).stimulus = s.stimulus := by
  rw [loadSymbol_frame]

theorem unitStep_keepsStimulus (s : State.Of p) : KeepsStimulus s (unitStep s) := by
  intro t ht
  obtain ⟨-, sym, -, rfl⟩ | ⟨-, -, rfl⟩ | ⟨-, -, rfl⟩ := unitStep_cases ht <;> simp

theorem tickMorseBody_keepsStimulus (s : State.Of p) : KeepsStimulus s (tickMorseBody s) := by
  have hrestart : (if s.resetFlag then restartCursor s else s).stimulus = s.stimulus := by split <;> rfl
  unfold tickMorseBody
  split
  · simp
  · generalize (if s.resetFlag then restartCursor s else s) = u at hrestart
    have hunit : KeepsStimulus s (if u.rateCount = 0 then unitStep u else .next u) := by
      rw [KeepsStimulus, ← hrestart]
      split
      · exact unitStep_keepsStimulus u
      · simp
    dsimp only
    split
    · split <;> simp [hrestart]
    · exact hunit.andThen fun _ => rfl

/-! ## The reload -/

theorem reloadEndBody_keepsStimulus (s : State.Of p) : KeepsStimulus s (reloadEndBody s) := by
  unfold reloadEndBody
  split
  · simp
  · split
    · simp
    · split
      · simp
      · simp [reloadScheduler, reloadMorse, reloadSynth]

/-! ## The scheduler -/

theorem enterWindow_stimulus (s : State.Of p) : (enterWindow s).stimulus = s.stimulus := by simp [enterWindow]

theorem leaveWindow_stimulus (s : State.Of p) : (leaveWindow s).stimulus = s.stimulus := by simp [leaveWindow]

theorem noteRetry_stimulus (s : State.Of p) : (noteRetry s).stimulus = s.stimulus := rfl

theorem evalWindowBody_stimulus (now : DateTime) (s : State.Of p) :
    (evalWindowBody now s).stimulus = s.stimulus := by
  unfold evalWindowBody
  generalize (if s.windowHolds now then WinState.inWindow else .outOfWindow) = new
  split
  · rfl
  · dsimp only
    split
    · rw [noteRetry_stimulus]
      split
      · exact enterWindow_stimulus s
      · exact leaveWindow_stimulus s
    · split
      · rw [noteRetry_stimulus, rtcArm1_stimulus]
      · rfl

theorem slotOnBranch_stimulus (m : Nat) (s : State.Of p) : (slotOnBranch m s).stimulus = s.stimulus := by
  cases hw : s.withinSlot <;> simp [slotOnBranch, hw]

theorem slotOffBranch_stimulus (m : Nat) (s : State.Of p) : (slotOffBranch m s).stimulus = s.stimulus := by
  cases hw : s.withinSlot <;> simp [slotOffBranch, hw]

theorem slotMisaligned_stimulus (m : Nat) (s : State.Of p) : (slotMisaligned m s).stimulus = s.stimulus := by
  simp [slotMisaligned]

theorem evalSlotBody_keepsStimulus (minute : BitVec 6) (s : State.Of p) :
    KeepsStimulus s (evalSlotBody minute s) := by
  unfold evalSlotBody
  split
  · simp
  · split
    · simp
    · rw [keepsStimulus_next]
      split
      · exact slotOnBranch_stimulus _ s
      · split
        · exact slotOffBranch_stimulus _ s
        · exact slotMisaligned_stimulus _ s

/-! ## Every instruction -/

/-- No instruction adds, takes or changes a word still to come: only the step takes one (R11; log 1). -/
theorem exec_keepsStimulus (i : Instr) (s : State) : KeepsStimulus s (exec i s) := by
  cases i with
  | nop r => exact (keepsStimulus_next s _).2 rfl
  | tickMorse r => exact .inRun tickMorseBody_keepsStimulus
  | tickMod r => exact .inRun tickModBody_keepsStimulus
  | evalWindow r now => exact .inRun_next (evalWindowBody_stimulus now)
  | evalSlot r minute => exact .inRun (evalSlotBody_keepsStimulus minute)
  | readerClaim r => exact (keepsStimulus_next s _).2 rfl
  | readerRelease r => exact (keepsStimulus_next s _).2 (drainDeferred_stimulus _)
  | synSetfreq r hz => exact .inRun_next (setFrequency_stimulus hz)
  | synSetamp r value => exact .inRun_next (setAmplitude_stimulus value)
  | synKeyon r => exact .inRun_next keyOn_stimulus
  | synKeyoff r => exact .inRun_next keyOff_stimulus
  | synPwrdown r => exact execSynPwrdown_keepsStimulus r s
  | synPwrup r => exact .inRun_next (gated_stimulus (synTxn_stimulus .power powerUp))
  | ccEnable r band => exact execCcEnable_keepsStimulus r band s
  | ccDisable r => exact execCcDisable_keepsStimulus r s
  | reloadBegin r => exact (keepsStimulus_next s _).2 rfl
  | reloadEnd r => exact .inConfig reloadEndBody_keepsStimulus
  | cfgWpm r value => exact .inConfig_next (setCfgWpm_stimulus value)
  | cfgMorseEn r en => exact .inConfig_next (f := fun u => { u with cfgMorseEn := en }) fun _ => rfl
  | cfgProgLen r len => exact .inConfig_next (setProgLen_stimulus len)
  | cfgProgSym r index sym => exact .inConfig_next (setProgSym_stimulus index sym)
  | cfgModEn r en => exact .inConfig_next (f := fun u => { u with cfgModEn := en }) fun _ => rfl
  | cfgModTab r index word => exact .inConfig_next (setModTab_stimulus index word)
  | cfgFreq r hz => exact .inConfig_next (setCfgFreq_stimulus hz)
  | cfgAmp r value => exact .inConfig_next (setCfgAmp_stimulus value)
  | cfgSlot r n m t => exact .inConfig_next (setSlot_stimulus n m t)
  | cfgWinStart r dt => exact .inConfig_next (setWinStart_stimulus dt)
  | cfgWinStop r dt => exact .inConfig_next (setWinStop_stimulus dt)
  | dot => exact (keepsStimulus_next s _).2 (loadSymbol_stimulus .dot s)
  | dash => exact (keepsStimulus_next s _).2 (loadSymbol_stimulus .dash s)
  | lsp => exact (keepsStimulus_next s _).2 (loadSymbol_stimulus .lsp s)
  | wsp => exact (keepsStimulus_next s _).2 (loadSymbol_stimulus .wsp s)

/-- Settles O6: the step is `exec` of the decoded word by the definition of `step`, and the waiting words stay because
no instruction touches them. -/
theorem stepRunsTheDecodedOperation : Obligations.StepRunsTheDecodedOperation := by
  intro s w rest i hs hd
  have hstep : step s = exec i { s with stimulus := rest } := stepBy_of_decode hs hd
  exact ⟨hstep, fun t ht => exec_keepsStimulus i _ t (hstep.symm.trans ht)⟩

end Sys2Proof.Machine

/-! PROOF. What the operations keep (spec/10_state.md R41, R47, R49, R73), in three layers. The frame: `writes i s t` is
`s` with only the fields that the operation `i` owns taken from `t`, and every answer `t` is `writes i s t`; ownership and
the read-only configuration are read off it. The driver: every operation acts on the key, the power, the claim and the
synthesizer image by a sequence of elementary steps, so that the laws about these are one look at the steps. The
invariants R47, in groups: the frame keeps a group except at the owners of its registers, which are looked at. -/

namespace Sys2Proof.Machine

variable {p : Config.Params}

/-! ## All the bodies of the operations can do -/

/-- A property of the body's answers and of the LOCKED answer is one of the answers of a RUN operation (R283). -/
theorem inRun_ensures {P : State.Of p → Prop} {r : Resp} {s t : State.Of p}
    {body : State.Of p → Host.Outcome (State.Of p) Fault Refusal} (h : inRun r s body = .next t)
    (hlocked : P (s.answered r Flag.locked.mask []))
    (hbody : s.mode = .run → ∀ u, body (s.startOp r) = .next u → P u) : P t := by
  obtain ⟨hm, hb⟩ | ⟨-, rfl⟩ := inRun_next h
  · exact hbody hm t hb
  · exact hlocked

/-- The same for a CONFIG operation (R283). -/
theorem inConfig_ensures {P : State.Of p → Prop} {r : Resp} {s t : State.Of p}
    {body : State.Of p → Host.Outcome (State.Of p) Fault Refusal} (h : inConfig r s body = .next t)
    (hlocked : P (s.answered r Flag.locked.mask []))
    (hbody : s.mode = .config → ∀ u, body (s.startOp r) = .next u → P u) : P t := by
  obtain ⟨hm, hb⟩ | ⟨-, rfl⟩ := inConfig_next h
  · exact hbody hm t hb
  · exact hlocked

/-- All TICK_MOD can do (R151, R152): idle, count, or count with a write that is denied, fails or is done. -/
theorem tickModBody_cases {s t : State.Of p} (h : tickModBody s = .next t) :
    t = { s with busAvailable := true } ∨
    ∃ b v, t = { v with modPhase := wrapInc s.modPhase p.modCycle } ∧
      (v = { s with busAvailable := b } ∨
       ∃ w, w = { s with busAvailable := b, modIndex := wrapInc s.modIndex p.modTableLen } ∧
        (v = w.raise .busy ∨ v = w.raise .commSyn ∨ ∃ a, v = w.synTxn .amp a)) := by
  unfold tickModBody at h
  split at h
  · exact .inl (Host.Outcome.next.inj h).symm
  · obtain ⟨v, hv, rfl⟩ := andThen_next.1 h
    refine .inr ⟨decide (s.modPhase.toNat < p.modYield), v, ?_⟩
    split at hv
    · unfold modWrite at hv
      dsimp only at hv
      split at hv
      · cases hv; exact ⟨rfl, .inr ⟨_, rfl, .inl rfl⟩⟩
      · split at hv
        · cases hv; exact ⟨rfl, .inr ⟨_, rfl, .inr (.inl rfl)⟩⟩
        · split at hv <;> cases hv
          exact ⟨rfl, .inr ⟨_, rfl, .inr (.inr ⟨_, rfl⟩)⟩⟩
    · cases hv; exact ⟨rfl, .inl rfl⟩

/-- All TICK_MORSE can do (R170, R171, R179): nothing; or, from the restarted cursor where a restart is due, the held
carrier of a disabled engine, or the counters' advance after at most one unit step. -/
theorem tickMorseBody_cases {s t : State.Of p} (h : tickMorseBody s = .next t) :
    t = s ∨ ∃ u, (u = s ∨ u = restartCursor s) ∧ (s.resetFlag = true → u = restartCursor s) ∧
      (t = u ∨ t = u.keyOn ∨ ∃ v, (v = u ∨ unitStep u = .next v) ∧ t = advanceRate v) := by
  unfold tickMorseBody at h
  split at h
  · exact .inl (Host.Outcome.next.inj h).symm
  · refine .inr ⟨if s.resetFlag then restartCursor s else s, by split <;> simp, fun hr => if_pos hr, ?_⟩
    generalize (if s.resetFlag then restartCursor s else s) = u at h
    dsimp only at h
    split at h
    · split at h
      · exact .inr (.inl (Host.Outcome.next.inj h).symm)
      · exact .inl (Host.Outcome.next.inj h).symm
    · obtain ⟨v, hv, rfl⟩ := andThen_next.1 h
      refine .inr (.inr ⟨v, ?_, rfl⟩)
      split at hv
      · exact .inr hv
      · exact .inl (Host.Outcome.next.inj hv).symm

/-- All EVAL_WINDOW can do (R205, R207). -/
theorem evalWindowBody_cases (now : DateTime) (s : State.Of p) :
    evalWindowBody now s = s.raise .invalid ∨ evalWindowBody now s = s ∨
    evalWindowBody now s = noteRetry (enterWindow s) ∨ evalWindowBody now s = noteRetry (leaveWindow s) ∨
    ∃ dt, evalWindowBody now s = noteRetry (s.rtcArm1 dt) := by
  unfold evalWindowBody
  generalize (if s.windowHolds now then WinState.inWindow else .outOfWindow) = new
  split
  · exact .inl rfl
  · dsimp only
    split
    · split
      · exact .inr (.inr (.inl rfl))
      · exact .inr (.inr (.inr (.inl rfl)))
    · split
      · exact .inr (.inr (.inr (.inr ⟨_, rfl⟩)))
      · exact .inr (.inl rfl)

/-- All EVAL_SLOT can do where it answers a next state (R215, R216): INVALID, an edge with its alarm and notification, or
an alarm alone, with or without MISALIGNED. -/
theorem evalSlotBody_cases {minute : BitVec 6} {s t : State.Of p} (h : evalSlotBody minute s = .next t) :
    t = s.raise .invalid ∨
    (∃ b m c, t = ((State.Of.gateUpdate { s with withinSlot := b }).rtcArm2 m).notify c) ∨
    ∃ u m, (u = s ∨ u = s.raise .misaligned) ∧ t = u.rtcArm2 m := by
  unfold evalSlotBody at h
  split at h
  · exact .inl (Host.Outcome.next.inj h).symm
  · split at h
    · cases h
    · rw [← Host.Outcome.next.inj h]
      split
      · cases hw : s.withinSlot <;> simp only [slotOnBranch, hw]
        · exact .inr (.inl ⟨true, _, .slotOn, rfl⟩)
        · exact .inr (.inr ⟨s, _, .inl rfl, rfl⟩)
      · split
        · cases hw : s.withinSlot <;> simp only [slotOffBranch, hw]
          · exact .inr (.inr ⟨s, _, .inl rfl, rfl⟩)
          · exact .inr (.inl ⟨false, _, .slotOff, rfl⟩)
        · exact .inr (.inr ⟨_, _, .inr rfl, rfl⟩)

/-- All RELOAD_END can do where it answers a next state (R245): BUSY, COMM_SYN, or the three groups with the unit of the
configured rate. -/
theorem reloadEndBody_cases {s t : State.Of p} (h : reloadEndBody s = .next t) :
    t = s.raise .busy ∨ t = s.raise .commSyn ∨
    ∃ unit, convertToUnit p s.cfgWpm.toNat = some unit ∧ t = reloadScheduler (reloadMorse unit (reloadSynth s)) := by
  unfold reloadEndBody at h
  split at h
  · exact .inl (Host.Outcome.next.inj h).symm
  · split at h
    · exact .inr (.inl (Host.Outcome.next.inj h).symm)
    · split at h
      · cases h
      · next unit hunit => exact .inr (.inr ⟨unit, hunit, (Host.Outcome.next.inj h).symm⟩)

/-- What RELOAD_END leaves: the state as it was but for the outputs, or the reloaded state (R245). -/
theorem execReloadEnd_cases {r : Resp} {s t : State.Of p} (h : execReloadEnd r s = .next t) :
    (∃ f, t = s.answered r f []) ∨
    ∃ unit, convertToUnit p s.cfgWpm.toNat = some unit ∧
      t = reloadScheduler (reloadMorse unit (reloadSynth (s.startOp r))) := by
  obtain ⟨-, hb⟩ | ⟨-, rfl⟩ := inConfig_next h
  · obtain rfl | rfl | ⟨unit, hunit, rfl⟩ := reloadEndBody_cases hb
    · exact .inl ⟨_, rfl⟩
    · exact .inl ⟨_, rfl⟩
    · exact .inr ⟨unit, hunit, rfl⟩
  · exact .inl ⟨_, rfl⟩

/-! ## What the shared operations leave alone -/

/-- A property of a denied or failed transaction and of the action is one of the gated action (R121). -/
theorem gated_ensures {P : State.Of p → Prop} {s : State.Of p} {act : State.Of p → State.Of p}
    (hraise : ∀ f, P (s.raise f)) (hact : s.claimedByReader = false → P (act s)) : P (s.gated act) := by
  obtain ⟨-, e⟩ | ⟨-, -, e⟩ | ⟨hc, -, e⟩ := gated_cases act s <;> rw [e]
  · exact hraise .busy
  · exact hraise .commSyn
  · exact hact hc

/-- `GateUpdate()` leaves every field alone but the two of the engine's gate and those of its key-off (R181). -/
theorem gateUpdate_frame (s : State.Of p) :
    s.gateUpdate = { s with
      morseRunning := s.gateUpdate.morseRunning, resetFlag := s.gateUpdate.resetFlag, keyed := s.gateUpdate.keyed,
      deferred := s.gateUpdate.deferred, synBuf := s.gateUpdate.synBuf, synAct := s.gateUpdate.synAct,
      flags := s.gateUpdate.flags, out := s.gateUpdate.out } := by
  obtain ⟨-, -, e⟩ | ⟨-, -, e⟩ | ⟨-, e⟩ := gateUpdate_cases s
  · rw [e]
  · rw [e, keyOff_frame]
  · rw [e]

theorem rtcArm1_frame (dt : DateTime) (s : State.Of p) :
    s.rtcArm1 dt = { s with
      rtcAlarm1 := (s.rtcArm1 dt).rtcAlarm1, flags := (s.rtcArm1 dt).flags, out := (s.rtcArm1 dt).out } := by
  obtain ⟨-, e⟩ | ⟨-, e⟩ := rtcArm1_cases dt s <;> rw [e] <;> rfl

theorem rtcArm2_frame (m : Nat) (s : State.Of p) :
    s.rtcArm2 m = { s with
      rtcAlarm2 := (s.rtcArm2 m).rtcAlarm2, flags := (s.rtcArm2 m).flags, out := (s.rtcArm2 m).out } := by
  obtain ⟨-, e⟩ | ⟨-, e⟩ := rtcArm2_cases m s <;> rw [e] <;> rfl

/-! ## What each operation may write -/

/-- `s` with the model's ports and the fields that the instruction `i` may write taken from `t` (R49). -/
def writes (i : Instr) (s t : State.Of p) : State.Of p :=
  let u := s.answered t.resp t.flags t.out
  match i with
  | .nop _ => u
  | .tickMorse _ => { u with
      symbolIndex := t.symbolIndex, unitsRemaining := t.unitsRemaining, curIsMark := t.curIsMark,
      rateCount := t.rateCount, resetFlag := t.resetFlag, keyed := t.keyed, deferred := t.deferred,
      synBuf := t.synBuf, synAct := t.synAct }
  | .tickMod _ => { u with
      modPhase := t.modPhase, modIndex := t.modIndex, busAvailable := t.busAvailable,
      synBuf := t.synBuf, synAct := t.synAct }
  | .evalWindow _ _ => { u with
      winState := t.winState, winAlarmRetry := t.winAlarmRetry, rtcAlarm1 := t.rtcAlarm1,
      morseRunning := t.morseRunning, resetFlag := t.resetFlag, keyed := t.keyed, deferred := t.deferred,
      synBuf := t.synBuf, synAct := t.synAct }
  | .evalSlot _ _ => { u with
      withinSlot := t.withinSlot, rtcAlarm2 := t.rtcAlarm2,
      morseRunning := t.morseRunning, resetFlag := t.resetFlag, keyed := t.keyed, deferred := t.deferred,
      synBuf := t.synBuf, synAct := t.synAct }
  | .readerClaim _ => { u with claimedByReader := t.claimedByReader }
  | .readerRelease _ => { u with
      claimedByReader := t.claimedByReader, keyed := t.keyed, deferred := t.deferred,
      synBuf := t.synBuf, synAct := t.synAct }
  | .synSetfreq _ _ | .synSetamp _ _ => { u with synBuf := t.synBuf, synAct := t.synAct }
  | .synKeyon _ | .synKeyoff _ => { u with
      keyed := t.keyed, deferred := t.deferred, synBuf := t.synBuf, synAct := t.synAct }
  | .synPwrdown _ => { u with
      keyed := t.keyed, poweredDown := t.poweredDown, synBuf := t.synBuf, synAct := t.synAct }
  | .synPwrup _ => { u with poweredDown := t.poweredDown, synBuf := t.synBuf, synAct := t.synAct }
  | .ccEnable _ _ | .ccDisable _ => { u with
      ccBand := t.ccBand, morseRunning := t.morseRunning, resetFlag := t.resetFlag, keyed := t.keyed,
      synBuf := t.synBuf, synAct := t.synAct }
  | .reloadBegin _ => { u with mode := t.mode }
  | .reloadEnd _ => { u with
      symbolIndex := t.symbolIndex, unitsRemaining := t.unitsRemaining, curIsMark := t.curIsMark,
      rateCount := t.rateCount, morseUnit := t.morseUnit, resetFlag := t.resetFlag, morseRunning := t.morseRunning,
      modPhase := t.modPhase, modIndex := t.modIndex, busAvailable := t.busAvailable, keyed := t.keyed,
      modulationEnabled := t.modulationEnabled, ccBand := t.ccBand, poweredDown := t.poweredDown,
      winState := t.winState, withinSlot := t.withinSlot, winAlarmRetry := t.winAlarmRetry, mode := t.mode,
      synBuf := t.synBuf, synAct := t.synAct }
  | .cfgWpm _ _ => { u with cfgWpm := t.cfgWpm }
  | .cfgMorseEn _ _ => { u with cfgMorseEn := t.cfgMorseEn }
  | .cfgProgLen _ _ => { u with cfgProgLen := t.cfgProgLen }
  | .cfgProgSym _ _ _ => { u with prog := t.prog }
  | .cfgModEn _ _ => { u with cfgModEn := t.cfgModEn }
  | .cfgModTab _ _ _ => { u with modTab := t.modTab }
  | .cfgFreq _ _ => { u with cfgFreq := t.cfgFreq }
  | .cfgAmp _ _ => { u with cfgAmpPct := t.cfgAmpPct }
  | .cfgSlot _ _ _ _ => { u with
      cfgFoxNumber := t.cfgFoxNumber, cfgFoxMax := t.cfgFoxMax, cfgTransmitMinute := t.cfgTransmitMinute }
  | .cfgWinStart _ _ => { u with cfgWinStart := t.cfgWinStart }
  | .cfgWinStop _ _ => { u with cfgWinStop := t.cfgWinStop }
  | .dot | .dash => { u with
      unitsRemaining := t.unitsRemaining, curIsMark := t.curIsMark, keyed := t.keyed, deferred := t.deferred,
      synBuf := t.synBuf, synAct := t.synAct }
  | .lsp | .wsp => { u with unitsRemaining := t.unitsRemaining, curIsMark := t.curIsMark }

/-- From `s` to `t` nothing changed but what the instruction `i` may write. -/
def Writes (i : Instr) (s t : State.Of p) : Prop := t = writes i s t

/-- Two parts of an operation that each write only its fields do so one after the other. -/
theorem Writes.trans {i : Instr} {s u t : State.Of p} (hu : Writes i s u) (ht : Writes i u t) : Writes i s t := by
  unfold Writes at *
  rw [ht, hu]
  cases i <;> rfl

theorem writes_answered (i : Instr) (s : State.Of p) (r : Resp) (f : BitVec 8) (o : List OutRecord) :
    Writes i s (s.answered r f o) := by cases i <;> rfl

theorem writes_refl (i : Instr) (s : State.Of p) : Writes i s s := writes_answered i s s.resp s.flags s.out

theorem writes_raise (i : Instr) (f : Flag) (s : State.Of p) : Writes i s (s.raise f) := writes_answered i s _ _ _

theorem writes_notify (i : Instr) (c : Note) (s : State.Of p) : Writes i s (s.notify c) := writes_answered i s _ _ _

theorem Writes.inRun {i : Instr} {r : Resp} {s t : State.Of p}
    {body : State.Of p → Host.Outcome (State.Of p) Fault Refusal} (h : Machine.inRun r s body = .next t)
    (hb : ∀ u v, body u = .next v → Writes i u v) : Writes i s t :=
  inRun_ensures h (writes_answered i s _ _ _) fun _ u hu => (writes_answered i s r 0 []).trans (hb _ u hu)

theorem Writes.inConfig {i : Instr} {r : Resp} {s t : State.Of p}
    {body : State.Of p → Host.Outcome (State.Of p) Fault Refusal} (h : Machine.inConfig r s body = .next t)
    (hb : ∀ u v, body u = .next v → Writes i u v) : Writes i s t :=
  inConfig_ensures h (writes_answered i s _ _ _) fun _ u hu => (writes_answered i s r 0 []).trans (hb _ u hu)

/-- The mode check around a body that always answers a next state (R283). -/
theorem Writes.inRun_next {i : Instr} {r : Resp} {s t : State.Of p} {f : State.Of p → State.Of p}
    (h : Machine.inRun r s (fun u => .next (f u)) = .next t) (hf : ∀ u, Writes i u (f u)) : Writes i s t :=
  .inRun h fun u v hv => by rw [← Host.Outcome.next.inj hv]; exact hf u

theorem Writes.inConfig_next {i : Instr} {r : Resp} {s t : State.Of p} {f : State.Of p → State.Of p}
    (h : Machine.inConfig r s (fun u => .next (f u)) = .next t) (hf : ∀ u, Writes i u (f u)) : Writes i s t :=
  .inConfig h fun u v hv => by rw [← Host.Outcome.next.inj hv]; exact hf u

theorem Writes.gated {i : Instr} {s : State.Of p} {act : State.Of p → State.Of p}
    (hact : s.claimedByReader = false → Writes i s (act s)) : Writes i s (s.gated act) :=
  gated_ensures (fun f => writes_raise i f s) hact

/-! The parts of the operations. -/

theorem loadSymbol_writes (r : Resp) (sym : Symbol) (s : State.Of p) : Writes (.tickMorse r) s (loadSymbol sym s) := by
  unfold Writes; rw [loadSymbol_frame]; rfl

theorem unitStep_writes (r : Resp) {s t : State.Of p} (h : unitStep s = .next t) : Writes (.tickMorse r) s t := by
  obtain ⟨-, sym, -, rfl⟩ | ⟨-, -, rfl⟩ | ⟨-, -, rfl⟩ := unitStep_cases h
  · exact .trans (u := { s with symbolIndex := wrapInc s.symbolIndex s.cfgProgLen.toNat }) rfl
      (loadSymbol_writes r sym _)
  · rfl
  · unfold Writes; rw [keyOff_frame]; rfl

theorem tickMorseBody_writes (r : Resp) {s t : State.Of p} (h : tickMorseBody s = .next t) :
    Writes (.tickMorse r) s t := by
  have hadvance : ∀ v : State.Of p, Writes (.tickMorse r) v (advanceRate v) := fun _ => rfl
  obtain rfl | ⟨u, hu, -, ht⟩ := tickMorseBody_cases h
  · rfl
  have hsu : Writes (.tickMorse r) s u := by obtain rfl | rfl := hu <;> rfl
  obtain rfl | rfl | ⟨v, rfl | hv, rfl⟩ := ht
  · exact hsu
  · refine hsu.trans ?_
    unfold Writes; rw [keyOn_frame]; rfl
  · exact hsu.trans (hadvance v)
  · exact hsu.trans ((unitStep_writes r hv).trans (hadvance v))

theorem tickModBody_writes (r : Resp) {s t : State.Of p} (h : tickModBody s = .next t) : Writes (.tickMod r) s t := by
  obtain rfl | ⟨b, v, rfl, rfl | ⟨w, rfl, rfl | rfl | ⟨a, rfl⟩⟩⟩ := tickModBody_cases h <;> rfl

theorem rtcArm1_writes (r : Resp) (now dt : DateTime) (s : State.Of p) :
    Writes (.evalWindow r now) s (s.rtcArm1 dt) := by
  unfold Writes; rw [rtcArm1_frame]; rfl

theorem setWinState_writes (r : Resp) (now : DateTime) (w : WinState) (s : State.Of p) :
    Writes (.evalWindow r now) s (State.Of.gateUpdate { s with winState := w }) := by
  refine .trans (u := { s with winState := w }) rfl ?_
  unfold Writes; rw [gateUpdate_frame]; rfl

theorem noteRetry_writes (r : Resp) (now : DateTime) (s : State.Of p) : Writes (.evalWindow r now) s (noteRetry s) := rfl

theorem enterWindow_writes (r : Resp) (now : DateTime) (s : State.Of p) : Writes (.evalWindow r now) s (enterWindow s) :=
  ((rtcArm1_writes r now s.cfgWinStop s).trans (setWinState_writes r now .inWindow _)).trans
    (writes_notify _ .windowEntered _)

theorem leaveWindow_writes (r : Resp) (now : DateTime) (s : State.Of p) : Writes (.evalWindow r now) s (leaveWindow s) :=
  ((setWinState_writes r now .outOfWindow s).trans (rtcArm1_writes r now _ _)).trans (writes_notify _ .windowLeft _)

theorem evalWindowBody_writes (r : Resp) (now : DateTime) (s : State.Of p) :
    Writes (.evalWindow r now) s (evalWindowBody now s) := by
  obtain e | e | e | e | ⟨dt, e⟩ := evalWindowBody_cases now s <;> rw [e]
  · exact writes_raise _ .invalid s
  · exact writes_refl _ s
  · exact (enterWindow_writes r now s).trans (noteRetry_writes r now _)
  · exact (leaveWindow_writes r now s).trans (noteRetry_writes r now _)
  · exact (rtcArm1_writes r now dt s).trans (noteRetry_writes r now _)

theorem rtcArm2_writes (r : Resp) (minute : BitVec 6) (m : Nat) (s : State.Of p) :
    Writes (.evalSlot r minute) s (s.rtcArm2 m) := by
  unfold Writes; rw [rtcArm2_frame]; rfl

theorem setWithinSlot_writes (r : Resp) (minute : BitVec 6) (b : Bool) (s : State.Of p) :
    Writes (.evalSlot r minute) s (State.Of.gateUpdate { s with withinSlot := b }) := by
  refine .trans (u := { s with withinSlot := b }) rfl ?_
  unfold Writes; rw [gateUpdate_frame]; rfl

theorem evalSlotBody_writes (r : Resp) (minute : BitVec 6) {s t : State.Of p}
    (h : evalSlotBody minute s = .next t) : Writes (.evalSlot r minute) s t := by
  obtain rfl | ⟨b, m, c, rfl⟩ | ⟨u, m, rfl | rfl, rfl⟩ := evalSlotBody_cases h
  · exact writes_raise _ .invalid s
  · exact ((setWithinSlot_writes r minute b s).trans (rtcArm2_writes r minute m _)).trans (writes_notify _ c _)
  · exact rtcArm2_writes r minute m u
  · exact (writes_raise _ .misaligned s).trans (rtcArm2_writes r minute m _)

theorem drainDeferred_writes (r : Resp) (s : State.Of p) : Writes (.readerRelease r) s s.drainDeferred := by
  have hclear : Writes (.readerRelease r) s (s.setDeferred .none) := rfl
  obtain ⟨-, e⟩ | ⟨-, e⟩ | ⟨-, e⟩ := drainDeferred_cases s <;> rw [e]
  · rfl
  · exact hclear.trans (by unfold Writes; rw [keyOn_frame]; rfl)
  · exact hclear.trans (by unfold Writes; rw [keyOff_frame]; rfl)

theorem readerRelease_writes (r : Resp) (s : State.Of p) :
    Writes (.readerRelease r) s (State.Of.drainDeferred { s with claimedByReader := false }) :=
  .trans (u := { s with claimedByReader := false }) rfl (drainDeferred_writes r _)

theorem powerDownNow_writes (r : Resp) (s : State.Of p) : Writes (.synPwrdown r) s (powerDownNow s) := by
  have hkey : Writes (.synPwrdown r) s { s.synTxn .key keyValueOff with keyed := false } := rfl
  have hpower : ∀ u : State.Of p, Writes (.synPwrdown r) u { u.synTxn .power powerDown with poweredDown := true } :=
    fun _ => rfl
  unfold powerDownNow
  split
  · exact hkey.trans (hpower _)
  · exact hpower s

theorem enableCarrierNow_writes (r : Resp) (band : BitVec 2) (b : CcBand) (s : State.Of p) :
    Writes (.ccEnable r band) s (enableCarrierNow b s) := by
  have hoff : Writes (.ccEnable r band) s { s.synTxn .key keyValueOff with keyed := false, ccBand := b } := rfl
  have hon : ∀ u : State.Of p, Writes (.ccEnable r band) u
      { u.synTxn .key keyValueOn with keyed := true, morseRunning := false, resetFlag := false } := fun _ => rfl
  exact hoff.trans (hon _)

/-- On a free bus the key-off of `GateUpdate()` is not deferred (R102, R123). -/
theorem gateUpdate_deferred_of_free {s : State.Of p} (hc : s.claimedByReader = false) :
    s.gateUpdate.deferred = s.deferred := by
  obtain ⟨-, -, e⟩ | ⟨-, -, e⟩ | ⟨-, e⟩ := gateUpdate_cases s <;> rw [e]
  obtain ⟨hc', -⟩ | ⟨-, -, e⟩ | ⟨-, -, e⟩ := keyOff_cases { s with morseRunning := false, resetFlag := false }
  · exact absurd (hc.symm.trans hc') (by decide)
  · rw [e]; rfl
  · rw [e]; rfl

/-- CC_DISABLE acts on a free bus only, so that it writes no deferred action (R121, R131). -/
theorem gateUpdate_writes_of_free (r : Resp) {s : State.Of p} (hc : s.claimedByReader = false) :
    Writes (.ccDisable r) s s.gateUpdate := by
  unfold Writes; rw [gateUpdate_frame, gateUpdate_deferred_of_free hc]; rfl

theorem disableCarrierNow_writes (r : Resp) {s : State.Of p} (hc : s.claimedByReader = false) :
    Writes (.ccDisable r) s (disableCarrierNow s) :=
  .trans (u := { s.synTxn .key keyValueOff with keyed := false, ccBand := .none }) rfl (gateUpdate_writes_of_free r hc)

theorem reloadSynth_writes (r : Resp) (s : State.Of p) : Writes (.reloadEnd r) s (reloadSynth s) := by
  have hup : Writes (.reloadEnd r) s { s.synTxn .power powerUp with poweredDown := false } := rfl
  have hwrite : ∀ (q : SynReg) (v : Word) (u : State.Of p), Writes (.reloadEnd r) u (u.synTxn q v) := fun _ _ _ => rfl
  have hoff : ∀ u : State.Of p, Writes (.reloadEnd r) u
      { u.synTxn .key keyValueOff with keyed := false } := fun _ => rfl
  have hidle : ∀ u : State.Of p, Writes (.reloadEnd r) u
      { u with
        ccBand := .none, modulationEnabled := u.cfgModEn, modPhase := 0, modIndex := 0, busAvailable := true } :=
    fun _ => rfl
  exact hup.trans ((hwrite .freq _ _).trans ((hwrite .amp _ _).trans ((hoff _).trans (hidle _))))

theorem reloadEndBody_writes (r : Resp) {s t : State.Of p} (h : reloadEndBody s = .next t) :
    Writes (.reloadEnd r) s t := by
  have hmorse : ∀ (unit : Nat) (u : State.Of p), Writes (.reloadEnd r) u (reloadScheduler (reloadMorse unit u)) :=
    fun _ _ => rfl
  obtain rfl | rfl | ⟨unit, -, rfl⟩ := reloadEndBody_cases h
  · exact writes_raise _ .busy s
  · exact writes_raise _ .commSyn s
  · exact (reloadSynth_writes r s).trans (hmorse unit _)

theorem execSynPwrdown_writes {r : Resp} {s t : State.Of p} (h : execSynPwrdown r s = .next t) :
    Writes (.synPwrdown r) s t := by
  refine .inRun_next h fun u => ?_
  split
  · exact writes_raise _ .invalid u
  · exact .gated fun _ => powerDownNow_writes r u

theorem execCcEnable_writes {r : Resp} {band : BitVec 2} {s t : State.Of p} (h : execCcEnable r band s = .next t) :
    Writes (.ccEnable r band) s t := by
  refine .inRun_next h fun u => ?_
  split
  · exact writes_raise _ .invalid u
  · split
    · exact writes_raise _ .invalid u
    · exact .gated fun _ => enableCarrierNow_writes r band _ u

theorem execCcDisable_writes {r : Resp} {s t : State.Of p} (h : execCcDisable r s = .next t) :
    Writes (.ccDisable r) s t := by
  refine .inRun_next h fun u => ?_
  split
  · exact writes_refl _ u
  · exact .gated (disableCarrierNow_writes r)

/-- Every answer of an instruction differs from the state it began in only where the instruction may write. -/
theorem execOf_writes {i : Instr} {s t : State.Of p} (h : execOf p i s = .next t) : Writes i s t := by
  cases i with
  | nop r => cases h; rfl
  | tickMorse r => exact .inRun h fun _ _ => tickMorseBody_writes r
  | tickMod r => exact .inRun h fun _ _ => tickModBody_writes r
  | evalWindow r now => exact .inRun_next h (evalWindowBody_writes r now)
  | evalSlot r minute => exact .inRun h fun _ _ => evalSlotBody_writes r minute
  | readerClaim r => cases h; rfl
  | readerRelease r =>
    cases h
    exact (writes_answered _ s r 0 []).trans (readerRelease_writes r _)
  | synSetfreq r hz =>
    refine .inRun_next h fun u => ?_
    unfold setFrequency
    split
    · rfl
    · exact .gated fun _ => rfl
  | synSetamp r value =>
    refine .inRun_next h fun u => ?_
    unfold setAmplitude
    split
    · rfl
    · exact .gated fun _ => rfl
  | synKeyon r => exact .inRun_next h fun u => by unfold Writes; rw [keyOn_frame]; rfl
  | synKeyoff r => exact .inRun_next h fun u => by unfold Writes; rw [keyOff_frame]; rfl
  | synPwrdown r => exact execSynPwrdown_writes h
  | synPwrup r => exact .inRun_next h fun u => .gated fun _ => rfl
  | ccEnable r band => exact execCcEnable_writes h
  | ccDisable r => exact execCcDisable_writes h
  | reloadBegin r => cases h; rfl
  | reloadEnd r => exact .inConfig h fun _ _ => reloadEndBody_writes r
  | cfgWpm r value => exact .inConfig_next h fun u => by unfold setCfgWpm; split <;> rfl
  | cfgMorseEn r en => exact .inConfig_next (f := fun u => { u with cfgMorseEn := en }) h fun _ => rfl
  | cfgProgLen r len => exact .inConfig_next h fun u => by unfold setProgLen; split <;> rfl
  | cfgProgSym r index sym => exact .inConfig_next h fun u => by unfold setProgSym; split <;> rfl
  | cfgModEn r en => exact .inConfig_next (f := fun u => { u with cfgModEn := en }) h fun _ => rfl
  | cfgModTab r index word => exact .inConfig_next h fun u => by unfold setModTab; split <;> rfl
  | cfgFreq r hz => exact .inConfig_next h fun u => by unfold setCfgFreq; split <;> rfl
  | cfgAmp r value => exact .inConfig_next h fun u => by unfold setCfgAmp; split <;> rfl
  | cfgSlot r n m t => exact .inConfig_next h fun u => by unfold setSlot; split <;> rfl
  | cfgWinStart r dt => exact .inConfig_next h fun u => by unfold setWinStart; split <;> rfl
  | cfgWinStop r dt => exact .inConfig_next h fun u => by unfold setWinStop; split <;> rfl
  | dot => cases h; unfold Writes loadDot; rw [keyOn_frame]; rfl
  | dash => cases h; unfold Writes loadDash; rw [keyOn_frame]; rfl
  | lsp => cases h; rfl
  | wsp => cases h; rfl

/-! ## The owners of the working registers (R49) -/

section

variable {i : Instr} {s t : State.Of p}

theorem writes_cursor (h₁ : ∀ r, i ≠ .reloadEnd r) (h₂ : ∀ r, i ≠ .tickMorse r) (ho : i.isOperation = true) :
    (writes i s t).symbolIndex = s.symbolIndex ∧ (writes i s t).unitsRemaining = s.unitsRemaining ∧
      (writes i s t).curIsMark = s.curIsMark ∧ (writes i s t).rateCount = s.rateCount := by
  cases i with
  | reloadEnd r => exact absurd rfl (h₁ r)
  | tickMorse r => exact absurd rfl (h₂ r)
  | dot | dash | lsp | wsp => exact absurd ho (by decide)
  | _ => exact ⟨rfl, rfl, rfl, rfl⟩

theorem writes_modulator (h₁ : ∀ r, i ≠ .reloadEnd r) (h₂ : ∀ r, i ≠ .tickMod r) :
    (writes i s t).modPhase = s.modPhase ∧ (writes i s t).modIndex = s.modIndex ∧
      (writes i s t).busAvailable = s.busAvailable := by
  cases i with
  | reloadEnd r => exact absurd rfl (h₁ r)
  | tickMod r => exact absurd rfl (h₂ r)
  | _ => exact ⟨rfl, rfl, rfl⟩

theorem writes_window (h₁ : ∀ r, i ≠ .reloadEnd r) (h₂ : ∀ r d, i ≠ .evalWindow r d) :
    (writes i s t).winState = s.winState ∧ (writes i s t).winAlarmRetry = s.winAlarmRetry ∧
      (writes i s t).rtcAlarm1 = s.rtcAlarm1 := by
  cases i with
  | reloadEnd r => exact absurd rfl (h₁ r)
  | evalWindow r d => exact absurd rfl (h₂ r d)
  | _ => exact ⟨rfl, rfl, rfl⟩

theorem writes_morseRunning (h₁ : ∀ r, i ≠ .reloadEnd r) (h₂ : ∀ r d, i ≠ .evalWindow r d)
    (h₃ : ∀ r m, i ≠ .evalSlot r m) (h₄ : ∀ r b, i ≠ .ccEnable r b) (h₅ : ∀ r, i ≠ .ccDisable r) :
    (writes i s t).morseRunning = s.morseRunning := by
  cases i with
  | reloadEnd r => exact absurd rfl (h₁ r)
  | evalWindow r d => exact absurd rfl (h₂ r d)
  | evalSlot r m => exact absurd rfl (h₃ r m)
  | ccEnable r b => exact absurd rfl (h₄ r b)
  | ccDisable r => exact absurd rfl (h₅ r)
  | _ => rfl

theorem writes_resetFlag (h₁ : ∀ r, i ≠ .reloadEnd r) (h₂ : ∀ r, i ≠ .tickMorse r) (h₃ : ∀ r d, i ≠ .evalWindow r d)
    (h₄ : ∀ r m, i ≠ .evalSlot r m) (h₅ : ∀ r b, i ≠ .ccEnable r b) (h₆ : ∀ r, i ≠ .ccDisable r) :
    (writes i s t).resetFlag = s.resetFlag := by
  cases i with
  | reloadEnd r => exact absurd rfl (h₁ r)
  | tickMorse r => exact absurd rfl (h₂ r)
  | evalWindow r d => exact absurd rfl (h₃ r d)
  | evalSlot r m => exact absurd rfl (h₄ r m)
  | ccEnable r b => exact absurd rfl (h₅ r b)
  | ccDisable r => exact absurd rfl (h₆ r)
  | _ => rfl

theorem writes_deferred (h₁ : ∀ r, i ≠ .synKeyon r) (h₂ : ∀ r, i ≠ .synKeyoff r) (h₃ : ∀ r, i ≠ .tickMorse r)
    (h₄ : ∀ r d, i ≠ .evalWindow r d) (h₅ : ∀ r m, i ≠ .evalSlot r m) (h₆ : ∀ r, i ≠ .readerRelease r)
    (ho : i.isOperation = true) : (writes i s t).deferred = s.deferred := by
  cases i with
  | synKeyon r => exact absurd rfl (h₁ r)
  | synKeyoff r => exact absurd rfl (h₂ r)
  | tickMorse r => exact absurd rfl (h₃ r)
  | evalWindow r d => exact absurd rfl (h₄ r d)
  | evalSlot r m => exact absurd rfl (h₅ r m)
  | readerRelease r => exact absurd rfl (h₆ r)
  | dot | dash | lsp | wsp => exact absurd ho (by decide)
  | _ => rfl

theorem writes_slot (h₁ : ∀ r, i ≠ .reloadEnd r) (h₂ : ∀ r m, i ≠ .evalSlot r m) :
    (writes i s t).withinSlot = s.withinSlot ∧ (writes i s t).rtcAlarm2 = s.rtcAlarm2 := by
  cases i with
  | reloadEnd r => exact absurd rfl (h₁ r)
  | evalSlot r m => exact absurd rfl (h₂ r m)
  | _ => exact ⟨rfl, rfl⟩

theorem writes_claimedByReader (h₁ : ∀ r, i ≠ .readerClaim r) (h₂ : ∀ r, i ≠ .readerRelease r) :
    (writes i s t).claimedByReader = s.claimedByReader := by
  cases i with
  | readerClaim r => exact absurd rfl (h₁ r)
  | readerRelease r => exact absurd rfl (h₂ r)
  | _ => rfl

theorem writes_ccBand (h₁ : ∀ r, i ≠ .reloadEnd r) (h₂ : ∀ r b, i ≠ .ccEnable r b) (h₃ : ∀ r, i ≠ .ccDisable r) :
    (writes i s t).ccBand = s.ccBand := by
  cases i with
  | reloadEnd r => exact absurd rfl (h₁ r)
  | ccEnable r b => exact absurd rfl (h₂ r b)
  | ccDisable r => exact absurd rfl (h₃ r)
  | _ => rfl

theorem writes_poweredDown (h₁ : ∀ r, i ≠ .reloadEnd r) (h₂ : ∀ r, i ≠ .synPwrdown r) (h₃ : ∀ r, i ≠ .synPwrup r) :
    (writes i s t).poweredDown = s.poweredDown := by
  cases i with
  | reloadEnd r => exact absurd rfl (h₁ r)
  | synPwrdown r => exact absurd rfl (h₂ r)
  | synPwrup r => exact absurd rfl (h₃ r)
  | _ => rfl

theorem writes_reloaded (h₁ : ∀ r, i ≠ .reloadEnd r) :
    (writes i s t).morseUnit = s.morseUnit ∧ (writes i s t).modulationEnabled = s.modulationEnabled := by
  cases i with
  | reloadEnd r => exact absurd rfl (h₁ r)
  | _ => exact ⟨rfl, rfl⟩

theorem writes_keyed (h : mayKey i = false) : (writes i s t).keyed = s.keyed := by
  cases i with
  | synKeyon | synKeyoff | tickMorse | readerRelease | evalWindow | evalSlot | synPwrdown | ccEnable | ccDisable
  | reloadEnd | dot | dash => cases h
  | _ => rfl

end

/-- Settles O60: an answer is `writes i s t`, where each register is taken from the answer for its owners only. -/
theorem workingRegistersHaveOwners : Obligations.WorkingRegistersHaveOwners := by
  intro i s t ho h hr
  have hw : t = writes i s t := execOf_writes ((exec_eq_execOf i s).symm.trans h)
  rw [hw]
  exact ⟨fun hm => writes_cursor hr hm ho, writes_modulator hr, writes_window hr, writes_resetFlag hr,
    writes_morseRunning hr, fun h₁ h₂ h₃ h₄ h₅ h₆ => writes_deferred h₁ h₂ h₃ h₄ h₅ h₆ ho, writes_slot hr,
    writes_claimedByReader, writes_ccBand hr, writes_poweredDown hr, writes_reloaded hr⟩

/-! ## The configuration in RUN mode (R41, R42, R73) -/

/-- The configuration registers and the two ROMs. -/
def State.Of.config (s : State.Of p) :=
  (s.cfgWpm, s.cfgMorseEn, s.cfgProgLen, s.cfgModEn, s.cfgFreq, s.cfgAmpPct, s.cfgFoxNumber, s.cfgFoxMax,
    s.cfgTransmitMinute, s.cfgWinStart, s.cfgWinStop, s.prog, s.modTab)

/-- Only the operations that RUN mode does not accept may write the configuration (R73, R283). -/
theorem writes_config {i : Instr} (s t : State.Of p) (h : accepts .run i = true) : (writes i s t).config = s.config := by
  cases i with
  | cfgWpm | cfgMorseEn | cfgProgLen | cfgProgSym | cfgModEn | cfgModTab | cfgFreq | cfgAmp | cfgSlot
  | cfgWinStart | cfgWinStop => cases h
  | _ => rfl

theorem inConfig_config_of_run {r : Resp} {s t : State.Of p}
    {body : State.Of p → Host.Outcome (State.Of p) Fault Refusal} (hm : s.mode = .run)
    (h : inConfig r s body = .next t) : t.config = s.config := by
  rw [inConfig_of_run hm] at h
  rw [← Host.Outcome.next.inj h]
  rfl

/-- In RUN mode an instruction that is not accepted is LOCKED, and an accepted one does not write the configuration. -/
theorem execOf_config_of_run {i : Instr} {s t : State.Of p} (hm : s.mode = .run) (h : execOf p i s = .next t) :
    t.config = s.config := by
  have hw : accepts .run i = true → t.config = s.config := fun ha => by
    rw [execOf_writes h]; exact writes_config s t ha
  cases i with
  | reloadEnd | cfgWpm | cfgMorseEn | cfgProgLen | cfgProgSym | cfgModEn | cfgModTab | cfgFreq | cfgAmp | cfgSlot
  | cfgWinStart | cfgWinStop =>
    simp only [execOf] at h
    exact inConfig_config_of_run hm h
  | _ => exact hw rfl

/-- Settles O59. -/
theorem configurationIsReadOnlyInRun : Obligations.ConfigurationIsReadOnlyInRun := by
  intro i s t hm h
  have hc := execOf_config_of_run hm ((exec_eq_execOf i s).symm.trans h)
  simpa only [State.Of.config, Prod.mk.injEq] using hc

/-! ## The results of an earlier operation (R14, R20, R45, R92) -/

/-- Settles O57: an operation starts by latching its own response bits and clearing the flags and the records, in the
mode check or, where both modes accept it, itself. -/
theorem earlierResultsAreNotRead : Obligations.EarlierResultsAreNotRead := by
  intro i s r f o ho
  cases i with
  | dot | dash | lsp | wsp => exact absurd ho (by decide)
  | _ => rfl

/-! ## The driver: what the key and power operations act on (R31, R34 to R36, R43)

Every operation acts on `keyed`, `poweredDown`, the claim, the deferred action and the synthesizer image by a sequence of
a few elementary steps. What each step keeps, every operation keeps: the agreement of the image (R47 (g)), the two laws
R47 (a) and (b), and the KEY record of each change of `keyed` (R133) are each one look at the steps. -/

/-- The driver's part of the state, with the records written so far. -/
structure Driver where
  keyed : Bool
  poweredDown : Bool
  claimedByReader : Bool
  deferred : Deferred
  synBuf : SynImage
  synAct : SynImage
  out : List OutRecord

def State.Of.driver (s : State.Of p) : Driver :=
  ⟨s.keyed, s.poweredDown, s.claimedByReader, s.deferred, s.synBuf, s.synAct, s.out⟩

/-- `SynTxn(q, v)` of R64 on the driver. -/
def Driver.synTxn (q : SynReg) (v : Word) (d : Driver) : Driver :=
  { d with synBuf := d.synBuf.set q v, synAct := d.synBuf.set q v, out := d.out ++ [.synW q v] ++ [.synApply] }

/-- The elementary steps: a key change (R122, R123), a power change (R128, R129), a write of another register, a record
that is no synthesizer write, a deferral on a claimed bus (R102), the claim and the release with its cleared slot
(R103 to R105). -/
inductive DriverStep : Driver → Driver → Prop
  | keyOn (d : Driver) (hpower : d.poweredDown = false) :
    DriverStep d { d.synTxn .key keyValueOn with keyed := true }
  | keyOff (d : Driver) : DriverStep d { d.synTxn .key keyValueOff with keyed := false }
  | powerDown (d : Driver) (hkey : d.keyed = false) : DriverStep d { d.synTxn .power powerDown with poweredDown := true }
  | powerUp (d : Driver) : DriverStep d { d.synTxn .power powerUp with poweredDown := false }
  | write (d : Driver) (q : SynReg) (v : Word) (hkey : q ≠ .key) (hpower : q ≠ .power) : DriverStep d (d.synTxn q v)
  | emit (d : Driver) (o : OutRecord) : DriverStep d { d with out := d.out ++ [o] }
  | defer (d : Driver) (a : Deferred) (hclaim : d.claimedByReader = true) : DriverStep d { d with deferred := a }
  | claim (d : Driver) : DriverStep d { d with claimedByReader := true }
  | release (d : Driver) : DriverStep d { d with claimedByReader := false, deferred := .none }

/-- From `s` to `t` the driver took elementary steps. -/
def Drives (s t : State.Of p) : Prop := Relation.ReflTransGen DriverStep s.driver t.driver

theorem Drives.refl (s : State.Of p) : Drives s s := Relation.ReflTransGen.refl

theorem Drives.trans {s t u : State.Of p} (h : Drives s t) (h' : Drives t u) : Drives s u :=
  Relation.ReflTransGen.trans h h'

theorem DriverStep.drives {s t : State.Of p} (h : DriverStep s.driver t.driver) : Drives s t := .single h

/-! The shared operations. -/

theorem keyOn_drives (s : State.Of p) : Drives s s.keyOn := by
  obtain ⟨-, e⟩ | ⟨-, hc, e⟩ | ⟨-, -, -, e⟩ | ⟨hp, -, -, e⟩ := keyOn_cases s <;> rw [e]
  · exact .refl s
  · exact (DriverStep.defer s.driver .turnOn hc).drives
  · exact .refl s
  · exact (DriverStep.keyOn s.driver hp).drives

theorem keyOff_drives (s : State.Of p) : Drives s s.keyOff := by
  obtain ⟨hc, e⟩ | ⟨-, -, e⟩ | ⟨-, -, e⟩ := keyOff_cases s <;> rw [e]
  · exact (DriverStep.defer s.driver .turnOff hc).drives
  · exact .refl s
  · exact (DriverStep.keyOff s.driver).drives

/-- The release of the bus and the drain after it: the slot is cleared before its action runs (R103, R105). -/
theorem readerRelease_drives (s : State.Of p) :
    Drives s (State.Of.drainDeferred { s with claimedByReader := false }) := by
  have hrelease : Drives s (State.Of.setDeferred .none { s with claimedByReader := false }) :=
    (DriverStep.release s.driver).drives
  unfold State.Of.drainDeferred
  split
  · exact hrelease
  · exact hrelease.trans (keyOn_drives _)
  · exact hrelease.trans (keyOff_drives _)

theorem gateUpdate_drives (s : State.Of p) : Drives s s.gateUpdate := by
  obtain ⟨-, -, e⟩ | ⟨-, -, e⟩ | ⟨-, e⟩ := gateUpdate_cases s <;> rw [e]
  · exact .refl s
  · exact keyOff_drives { s with morseRunning := false, resetFlag := false }
  · exact .refl s

theorem gated_drives {s : State.Of p} {act : State.Of p → State.Of p} (hact : Drives s (act s)) :
    Drives s (s.gated act) :=
  gated_ensures (fun _ => .refl s) fun _ => hact

theorem notify_drives (c : Note) (s : State.Of p) : Drives s (s.notify c) := (DriverStep.emit s.driver _).drives

theorem rtcArm1_drives (dt : DateTime) (s : State.Of p) : Drives s (s.rtcArm1 dt) := by
  obtain ⟨-, e⟩ | ⟨-, e⟩ := rtcArm1_cases dt s <;> rw [e]
  · exact (DriverStep.emit s.driver _).drives
  · exact .refl s

theorem rtcArm2_drives (m : Nat) (s : State.Of p) : Drives s (s.rtcArm2 m) := by
  obtain ⟨-, e⟩ | ⟨-, e⟩ := rtcArm2_cases m s <;> rw [e]
  · exact (DriverStep.emit s.driver _).drives
  · exact .refl s

/-! The operations. -/

theorem loadSymbol_drives (sym : Symbol) (s : State.Of p) : Drives s (loadSymbol sym s) := by
  cases sym with
  | dot => exact keyOn_drives { s with unitsRemaining := BitVec.ofNat 4 p.unitsDot, curIsMark := true }
  | dash => exact keyOn_drives { s with unitsRemaining := BitVec.ofNat 4 p.unitsDash, curIsMark := true }
  | lsp => exact .refl s
  | wsp => exact .refl s

theorem unitStep_drives {s t : State.Of p} (h : unitStep s = .next t) : Drives s t := by
  obtain ⟨-, sym, -, rfl⟩ | ⟨-, -, rfl⟩ | ⟨-, -, rfl⟩ := unitStep_cases h
  · exact loadSymbol_drives sym { s with symbolIndex := wrapInc s.symbolIndex s.cfgProgLen.toNat }
  · exact .refl s
  · exact keyOff_drives { s with unitsRemaining := 0, curIsMark := false }

theorem tickMorseBody_drives {s t : State.Of p} (h : tickMorseBody s = .next t) : Drives s t := by
  obtain rfl | ⟨u, hu, -, ht⟩ := tickMorseBody_cases h
  · exact .refl t
  have hsu : Drives s u := by obtain rfl | rfl := hu <;> exact .refl _
  obtain rfl | rfl | ⟨v, rfl | hv, rfl⟩ := ht
  · exact hsu
  · exact hsu.trans (keyOn_drives u)
  · exact hsu
  · have huv : Drives u v := unitStep_drives hv
    exact hsu.trans huv

theorem tickModBody_drives {s t : State.Of p} (h : tickModBody s = .next t) : Drives s t := by
  obtain rfl | ⟨b, v, rfl, rfl | ⟨w, rfl, rfl | rfl | ⟨a, rfl⟩⟩⟩ := tickModBody_cases h
  · exact .refl s
  · exact .refl s
  · exact .refl s
  · exact .refl s
  · exact (DriverStep.write s.driver .amp a nofun nofun).drives

theorem enterWindow_drives (s : State.Of p) : Drives s (enterWindow s) :=
  ((rtcArm1_drives s.cfgWinStop s).trans (gateUpdate_drives { s.rtcArm1 s.cfgWinStop with winState := .inWindow })).trans
    (notify_drives .windowEntered _)

theorem leaveWindow_drives (s : State.Of p) : Drives s (leaveWindow s) :=
  ((gateUpdate_drives { s with winState := .outOfWindow } :).trans (rtcArm1_drives _ _)).trans
    (notify_drives .windowLeft _)

theorem evalWindowBody_drives (now : DateTime) (s : State.Of p) : Drives s (evalWindowBody now s) := by
  obtain e | e | e | e | ⟨dt, e⟩ := evalWindowBody_cases now s <;> rw [e]
  · exact .refl s
  · exact .refl s
  · exact enterWindow_drives s
  · exact leaveWindow_drives s
  · exact rtcArm1_drives dt s

theorem evalSlotBody_drives {minute : BitVec 6} {s t : State.Of p} (h : evalSlotBody minute s = .next t) :
    Drives s t := by
  obtain rfl | ⟨b, m, c, rfl⟩ | ⟨u, m, rfl | rfl, rfl⟩ := evalSlotBody_cases h
  · exact .refl s
  · exact ((gateUpdate_drives { s with withinSlot := b }).trans (rtcArm2_drives m _)).trans (notify_drives c _)
  · exact rtcArm2_drives m u
  · exact rtcArm2_drives m (s.raise .misaligned)

/-- Power goes down only after the key is off (R128). -/
theorem powerDownNow_drives (s : State.Of p) : Drives s (powerDownNow s) := by
  unfold powerDownNow
  split
  · have hoff := DriverStep.keyOff s.driver
    exact .tail (.single hoff) (.powerDown _ rfl)
  · next hk => exact (DriverStep.powerDown s.driver (Bool.eq_false_of_not_eq_true hk)).drives

theorem enableCarrierNow_drives (band : CcBand) {s : State.Of p} (hp : s.poweredDown = false) :
    Drives s (enableCarrierNow band s) :=
  .tail (.single (.keyOff s.driver)) (.keyOn _ hp)

theorem disableCarrierNow_drives (s : State.Of p) : Drives s (disableCarrierNow s) :=
  .trans (t := { s.synTxn .key keyValueOff with keyed := false, ccBand := .none }) (DriverStep.keyOff s.driver).drives
    (gateUpdate_drives _)

theorem reloadSynth_drives (s : State.Of p) : Drives s (reloadSynth s) := by
  have hup : Drives s { s.synTxn .power powerUp with poweredDown := false } := (DriverStep.powerUp s.driver).drives
  have hfreq : ∀ (v : Word) (u : State.Of p), Drives u (u.synTxn .freq v) := fun v u =>
    (DriverStep.write u.driver .freq v nofun nofun).drives
  have hamp : ∀ (v : Word) (u : State.Of p), Drives u (u.synTxn .amp v) := fun v u =>
    (DriverStep.write u.driver .amp v nofun nofun).drives
  have hoff : ∀ u : State.Of p, Drives u { u.synTxn .key keyValueOff with keyed := false } := fun u =>
    (DriverStep.keyOff u.driver).drives
  have hidle : ∀ u : State.Of p, Drives u { u with
      ccBand := .none, modulationEnabled := u.cfgModEn, modPhase := 0, modIndex := 0, busAvailable := true } :=
    fun u => .refl u
  exact hup.trans ((hfreq _ _).trans ((hamp _ _).trans ((hoff _).trans (hidle _))))

theorem reloadEndBody_drives {s t : State.Of p} (h : reloadEndBody s = .next t) : Drives s t := by
  obtain rfl | rfl | ⟨unit, -, rfl⟩ := reloadEndBody_cases h
  · exact .refl s
  · exact .refl s
  · have hrest : ∀ u : State.Of p, Drives u (reloadScheduler (reloadMorse unit u)) := fun u => .refl u
    exact (reloadSynth_drives s).trans (hrest _)

theorem Drives.inRun {r : Resp} {s t : State.Of p} {body : State.Of p → Host.Outcome (State.Of p) Fault Refusal}
    (h : Machine.inRun r s body = .next t) (hb : ∀ u v, body u = .next v → Drives u v) : Drives (s.startOp r) t :=
  inRun_ensures h (.refl (s.startOp r)) fun _ u hu => hb _ u hu

theorem Drives.inConfig {r : Resp} {s t : State.Of p} {body : State.Of p → Host.Outcome (State.Of p) Fault Refusal}
    (h : Machine.inConfig r s body = .next t) (hb : ∀ u v, body u = .next v → Drives u v) : Drives (s.startOp r) t :=
  inConfig_ensures h (.refl (s.startOp r)) fun _ u hu => hb _ u hu

/-- The mode check around a body that always answers a next state (R283). -/
theorem Drives.inRun_next {r : Resp} {s t : State.Of p} {f : State.Of p → State.Of p}
    (h : Machine.inRun r s (fun u => .next (f u)) = .next t) (hf : ∀ u, Drives u (f u)) : Drives (s.startOp r) t :=
  .inRun h fun u v hv => by rw [← Host.Outcome.next.inj hv]; exact hf u

theorem Drives.inConfig_next {r : Resp} {s t : State.Of p} {f : State.Of p → State.Of p}
    (h : Machine.inConfig r s (fun u => .next (f u)) = .next t) (hf : ∀ u, Drives u (f u)) : Drives (s.startOp r) t :=
  .inConfig h fun u v hv => by rw [← Host.Outcome.next.inj hv]; exact hf u

theorem execSynPwrdown_drives {r : Resp} {s t : State.Of p} (h : execSynPwrdown r s = .next t) :
    Drives (s.startOp r) t := by
  refine .inRun_next h fun u => ?_
  split
  · exact .refl u
  · exact gated_drives (powerDownNow_drives u)

theorem execCcEnable_drives {r : Resp} {band : BitVec 2} {s t : State.Of p} (h : execCcEnable r band s = .next t) :
    Drives (s.startOp r) t := by
  refine .inRun_next h fun u => ?_
  split
  · exact .refl u
  · next b _ =>
    split
    · exact .refl u
    · next hp => exact gated_drives (enableCarrierNow_drives b (Bool.eq_false_of_not_eq_true hp))

theorem execCcDisable_drives {r : Resp} {s t : State.Of p} (h : execCcDisable r s = .next t) :
    Drives (s.startOp r) t := by
  refine .inRun_next h fun u => ?_
  split
  · exact .refl u
  · exact gated_drives (disableCarrierNow_drives u)

/-- Every operation acts on the driver by elementary steps, from the state with its own response bits, no flags and no
records. -/
theorem execOf_drives {i : Instr} {s t : State.Of p} (ho : i.isOperation = true) (h : execOf p i s = .next t) :
    Drives (s.startOp i.resp) t := by
  cases i with
  | nop r => cases h; exact .refl _
  | tickMorse r => exact .inRun h fun _ _ => tickMorseBody_drives
  | tickMod r => exact .inRun h fun _ _ => tickModBody_drives
  | evalWindow r now => exact .inRun_next h (evalWindowBody_drives now)
  | evalSlot r minute => exact .inRun h fun _ _ => evalSlotBody_drives
  | readerClaim r => cases h; exact (DriverStep.claim (s.startOp r).driver).drives
  | readerRelease r => cases h; exact readerRelease_drives (s.startOp r)
  | synSetfreq r hz =>
    refine .inRun_next h fun u => ?_
    unfold setFrequency
    split
    · exact .refl u
    · exact gated_drives (DriverStep.write u.driver .freq hz nofun nofun).drives
  | synSetamp r value =>
    refine .inRun_next h fun u => ?_
    unfold setAmplitude
    split
    · exact .refl u
    · exact gated_drives (DriverStep.write u.driver .amp _ nofun nofun).drives
  | synKeyon r => exact .inRun_next h keyOn_drives
  | synKeyoff r => exact .inRun_next h keyOff_drives
  | synPwrdown r => exact execSynPwrdown_drives h
  | synPwrup r => exact .inRun_next h fun u => gated_drives (DriverStep.powerUp u.driver).drives
  | ccEnable r band => exact execCcEnable_drives h
  | ccDisable r => exact execCcDisable_drives h
  | reloadBegin r => cases h; exact .refl (s.startOp r)
  | reloadEnd r => exact .inConfig h fun _ _ => reloadEndBody_drives
  | cfgWpm r value => exact .inConfig_next h fun u => by unfold setCfgWpm; split <;> exact .refl u
  | cfgMorseEn r en => exact .inConfig_next (f := fun u => { u with cfgMorseEn := en }) h .refl
  | cfgProgLen r len => exact .inConfig_next h fun u => by unfold setProgLen; split <;> exact .refl u
  | cfgProgSym r index sym => exact .inConfig_next h fun u => by unfold setProgSym; split <;> exact .refl u
  | cfgModEn r en => exact .inConfig_next (f := fun u => { u with cfgModEn := en }) h .refl
  | cfgModTab r index word => exact .inConfig_next h fun u => by unfold setModTab; split <;> exact .refl u
  | cfgFreq r hz => exact .inConfig_next h fun u => by unfold setCfgFreq; split <;> exact .refl u
  | cfgAmp r value => exact .inConfig_next h fun u => by unfold setCfgAmp; split <;> exact .refl u
  | cfgSlot r n m t => exact .inConfig_next h fun u => by unfold setSlot; split <;> exact .refl u
  | cfgWinStart r dt => exact .inConfig_next h fun u => by unfold setWinStart; split <;> exact .refl u
  | cfgWinStop r dt => exact .inConfig_next h fun u => by unfold setWinStop; split <;> exact .refl u
  | dot | dash | lsp | wsp => exact absurd ho (by decide)

/-- What each elementary step keeps, a sequence of them keeps. -/
theorem Drives.keeps {P : Driver → Prop} (hstep : ∀ d e, DriverStep d e → P d → P e) {s t : State.Of p}
    (h : Drives s t) (hs : P s.driver) : P t.driver := by
  unfold Drives at h
  generalize t.driver = e at h
  induction h with
  | refl => exact hs
  | tail _ hde ih => exact hstep _ _ hde ih

/-- What the elementary steps and the clearing of the records keep, every instruction keeps: an operation, and a symbol
on its own. -/
theorem execOf_keeps_driver {P : Driver → Prop} (hclear : ∀ d, P d → P { d with out := [] })
    (hstep : ∀ d e, DriverStep d e → P d → P e) {i : Instr} {s t : State.Of p} (h : execOf p i s = .next t)
    (hs : P s.driver) : P t.driver := by
  cases ho : i.isOperation with
  | true => exact (execOf_drives ho h).keeps hstep (hclear _ hs)
  | false =>
    cases i with
    | dot => cases h; exact (loadSymbol_drives .dot s).keeps hstep hs
    | dash => cases h; exact (loadSymbol_drives .dash s).keeps hstep hs
    | lsp | wsp => cases h; exact hs
    | _ => cases ho

/-! ## The chip image (R43, R47 (g), R133) -/

/-- R47 (g) on the driver. -/
def Driver.Agrees (d : Driver) : Prop :=
  d.synAct = d.synBuf ∧ (d.keyed = true ↔ d.synAct.get .key = keyValueOn) ∧
    (d.poweredDown = true ↔ d.synAct.get .power = powerDown)

theorem imageAgrees_iff (s : State.Of p) : s.ImageAgrees ↔ s.driver.Agrees :=
  ⟨fun h => ⟨h.committed, h.key, h.power⟩, fun ⟨hc, hk, hp⟩ => ⟨hc, hk, hp⟩⟩

/-- A committed write keeps the agreement where the belief of its register changes with it and the other beliefs stay. -/
theorem DriverStep.agrees {d e : Driver} (h : DriverStep d e) (hd : d.Agrees) : e.Agrees := by
  obtain ⟨hc, hk, hp⟩ := hd
  rw [hc] at hk hp
  cases h with
  | keyOn => exact ⟨rfl, by simp [Driver.synTxn], by simpa [Driver.synTxn, get_set_other] using hp⟩
  | keyOff =>
    exact ⟨rfl, by simp [Driver.synTxn, keyValueOff, keyValueOn], by simpa [Driver.synTxn, get_set_other] using hp⟩
  | powerDown => exact ⟨rfl, by simpa [Driver.synTxn, get_set_other] using hk, by simp [Driver.synTxn]⟩
  | powerUp =>
    exact ⟨rfl, by simpa [Driver.synTxn, get_set_other] using hk,
      by simp [Driver.synTxn, Machine.powerUp, Machine.powerDown]⟩
  | write q v hkey hpower =>
    refine ⟨rfl, ?_, ?_⟩
    · simpa [Driver.synTxn, get_set_other _ _ _ _ hkey.symm] using hk
    · simpa [Driver.synTxn, get_set_other _ _ _ _ hpower.symm] using hp
  | emit | defer | claim | release => exact ⟨hc, by rw [hc]; exact hk, by rw [hc]; exact hp⟩

theorem execOf_imageAgrees {i : Instr} {s t : State.Of p} (h : execOf p i s = .next t) (hs : s.ImageAgrees) :
    t.ImageAgrees :=
  (imageAgrees_iff t).2 <| execOf_keeps_driver (P := Driver.Agrees) (fun _ h => h) (fun _ _ h => h.agrees) h <|
    (imageAgrees_iff s).1 hs

/-- The reload writes every register, with the power up and the key off, so that the image agrees whatever it held
before (R245). -/
theorem reloadSynth_imageAgrees (s : State.Of p) : (reloadSynth s).ImageAgrees where
  committed := rfl
  key := by simp [reloadSynth, keyValueOff, keyValueOn]
  power := by simp [reloadSynth, get_set_other, powerUp, powerDown]

theorem reloadRest_imageAgrees {unit : Nat} {s : State.Of p} (hs : s.ImageAgrees) :
    (reloadScheduler (reloadMorse unit s)).ImageAgrees := ⟨hs.committed, hs.key, hs.power⟩

/-- RUN mode is entered by a successful RELOAD_END only, and that makes the image agree (R47 (g), R245). -/
theorem execReloadEnd_imageAgrees {r : Resp} {s t : State.Of p} (hm : s.mode = .config)
    (h : execReloadEnd r s = .next t) (ht : t.mode = .run) : t.ImageAgrees := by
  obtain ⟨f, rfl⟩ | ⟨unit, -, rfl⟩ := execReloadEnd_cases h
  · exact absurd (hm.symm.trans ht) (by decide)
  · exact reloadRest_imageAgrees (reloadSynth_imageAgrees _)

/-- Settles O52: the successful RELOAD_END writes all four registers, and every elementary step of the driver keeps the
agreement. -/
theorem chipImageAgreesAfterReload : Obligations.ChipImageAgreesAfterReload :=
  ⟨fun _ _ _ hm h ht => execReloadEnd_imageAgrees hm h ht,
    fun i s _ hs h => execOf_imageAgrees ((exec_eq_execOf i s).symm.trans h) hs⟩

/-! ## The KEY record of each change of `keyed` (R31, R133) -/

/-- The driver began at the value `k` of `keyed`: it stands, or the records hold the KEY write of the value it has now;
and a carrier that was not on at the start is on only with the power up. -/
def Driver.KeyRecorded (k : Bool) (d : Driver) : Prop :=
  (d.keyed = k ∨ .synW .key (if d.keyed then 1 else 0) ∈ d.out) ∧
    (d.keyed = true → k = true ∨ d.poweredDown = false)

theorem DriverStep.keyRecorded {k : Bool} {d e : Driver} (h : DriverStep d e) (hd : d.KeyRecorded k) :
    e.KeyRecorded k := by
  obtain ⟨hrec, hpow⟩ := hd
  have hmem : ∀ o : List OutRecord, d.keyed = k ∨ .synW .key (if d.keyed then 1 else 0) ∈ d.out ++ o :=
    fun o => hrec.imp_right (List.mem_append_left o)
  have htxn : ∀ (q : SynReg) (v : Word),
      d.keyed = k ∨ .synW .key (if d.keyed then 1 else 0) ∈ (d.synTxn q v).out :=
    fun q v => (hmem [.synW q v]).imp_right (List.mem_append_left [OutRecord.synApply])
  cases h with
  | keyOn hpower => exact ⟨.inr (by simp [Driver.synTxn, keyValueOn]), fun _ => .inr hpower⟩
  | keyOff => exact ⟨.inr (by simp [Driver.synTxn, keyValueOff]), nofun⟩
  | powerDown hkey => exact ⟨htxn .power Machine.powerDown, fun hk => absurd (hkey.symm.trans hk) (by decide)⟩
  | powerUp => exact ⟨htxn .power Machine.powerUp, fun _ => .inr rfl⟩
  | write q v => exact ⟨htxn q v, hpow⟩
  | emit o => exact ⟨hmem [o], hpow⟩
  | defer | claim | release => exact ⟨hrec, hpow⟩

/-- SYN_PWRDOWN that acts leaves the power down (R128). -/
theorem execSynPwrdown_poweredDown {r : Resp} {s t : State.Of p} (h : execSynPwrdown r s = .next t) :
    t.poweredDown = true ∨ t.poweredDown = s.poweredDown := by
  obtain ⟨-, hb⟩ | ⟨-, rfl⟩ := inRun_next h
  · rw [← Host.Outcome.next.inj hb]
    split
    · exact .inr rfl
    · obtain ⟨-, e⟩ | ⟨-, -, e⟩ | ⟨-, -, e⟩ := gated_cases powerDownNow (s.startOp r) <;> rw [e]
      · exact .inr rfl
      · exact .inr rfl
      · exact .inl rfl
  · exact .inr rfl

/-- RELOAD_END that acts leaves the key off (R245). -/
theorem execReloadEnd_keyed {r : Resp} {s t : State.Of p} (h : execReloadEnd r s = .next t) :
    t.keyed = false ∨ t.keyed = s.keyed := by
  obtain ⟨f, rfl⟩ | ⟨unit, -, rfl⟩ := execReloadEnd_cases h
  · exact .inr rfl
  · exact .inl rfl

/-- A key that goes on finds the power up at the start of the operation: the power changes in three operations only, of
which the first two leave the carrier off where they change it and the third does not touch the key (R122, R128 to R130,
R245). -/
theorem poweredDown_of_keyed {i : Instr} {s t : State.Of p} (h : execOf p i s = .next t) (hne : t.keyed ≠ s.keyed)
    (hk : t.keyed = true) (hp : t.poweredDown = false) : s.poweredDown = false := by
  have hw : t = writes i s t := execOf_writes h
  have hframe : (∀ r, i ≠ .reloadEnd r) → (∀ r, i ≠ .synPwrdown r) → (∀ r, i ≠ .synPwrup r) →
      s.poweredDown = false := fun h₁ h₂ h₃ => by
    rw [← writes_poweredDown (t := t) h₁ h₂ h₃, ← hw]; exact hp
  cases i with
  | reloadEnd r =>
    obtain hoff | hsame := execReloadEnd_keyed h
    · exact absurd (hoff.symm.trans hk) (by decide)
    · exact absurd hsame hne
  | synPwrdown r =>
    obtain hdown | hsame := execSynPwrdown_poweredDown h
    · exact absurd (hp.symm.trans hdown) (by decide)
    · exact hsame.symm.trans hp
  | synPwrup r => exact absurd ((congrArg State.Of.keyed hw).trans (writes_keyed rfl)) hne
  | _ => exact hframe nofun nofun nofun

/-- Settles O58: an operation that may not key leaves `keyed` by its frame, and each elementary step that changes `keyed`
writes its record. -/
theorem keyedChangesWithItsRecord : Obligations.KeyedChangesWithItsRecord := by
  intro i s t ho h hne
  rw [exec_eq_execOf] at h
  have hw : t = writes i s t := execOf_writes h
  have hstart : (s.startOp i.resp).driver.KeyRecorded s.keyed := ⟨.inl rfl, fun hk => .inl hk⟩
  obtain ⟨hrec, hpow⟩ := (execOf_drives ho h).keeps (fun _ _ hde => hde.keyRecorded) hstart
  refine ⟨?_, hrec.resolve_left hne, fun hk => ?_⟩
  · by_contra hmay
    exact hne ((congrArg State.Of.keyed hw).trans (writes_keyed (Bool.eq_false_of_not_eq_true hmay)))
  · have hoff : s.keyed = false := by
      cases hs : s.keyed with
      | false => rfl
      | true => exact absurd (hk.trans hs.symm) hne
    have hp : t.poweredDown = false := (hpow hk).resolve_left (by rw [hoff]; decide)
    exact poweredDown_of_keyed h hne hk hp

/-! ## The invariants (R47, R22, R25, R27)

Each group of invariants speaks of registers with few owners, so that it needs a look at its owners only: everywhere else
the frame keeps it. -/

/-- Settles O50: the configuration at reset is legal, the counters are 0, and the rest speaks of RUN mode or of registers
that are clear. -/
theorem invariantHoldsAtReset : Obligations.InvariantHoldsAtReset := by
  have hall : ∀ p : Config.Params, p.Legal → (State.Of.reset p).Inv := by
    intro p hp
    obtain ⟨hpos, hlow, hhigh, hwidth⟩ := unit_of_rate hp hp.default_range.1 hp.default_range.2
    have hunit : (State.Of.reset p).morseUnit.toNat = p.wpmConst / p.wpmDefault := by
      simp only [State.Of.reset, BitVec.toNat_ofNat, Nat.mod_eq_of_lt hwidth]
    exact
      { deferred_claimed := nofun
        down_unkeyed := nofun
        index_in_program := nofun
        rate_below_unit := by rw [hunit]; exact hpos
        phase_in_cycle := Nat.lt_of_lt_of_le Nat.zero_lt_two hp.cycle_two
        mod_index_in_table := hp.table_one
        running_gated := nofun
        running_is_gate := nofun
        image_agrees := nofun
        reset_running := nofun
        config_legal := reset_configLegal hp
        units_range := Nat.zero_le _
        unit_range := by rw [hunit]; exact ⟨hlow, hhigh⟩ }
  exact ⟨hall, hall _ Config.params_legal⟩

/-! The claim and the power (R47 (a), (b)). -/

/-- R47 (a) and (b) on the driver. -/
def Driver.Sound (d : Driver) : Prop :=
  (d.deferred ≠ .none → d.claimedByReader = true) ∧ (d.poweredDown = true → d.keyed = false)

theorem DriverStep.sound {d e : Driver} (h : DriverStep d e) (hd : d.Sound) : e.Sound := by
  obtain ⟨hdef, hdown⟩ := hd
  cases h with
  | keyOn hpower => exact ⟨hdef, fun hp => absurd (hpower.symm.trans hp) (by decide)⟩
  | keyOff => exact ⟨hdef, fun _ => rfl⟩
  | powerDown hkey => exact ⟨hdef, fun _ => hkey⟩
  | powerUp => exact ⟨hdef, nofun⟩
  | write | emit => exact ⟨hdef, hdown⟩
  | defer a hclaim => exact ⟨fun _ => hclaim, hdown⟩
  | claim => exact ⟨fun _ => rfl, hdown⟩
  | release => exact ⟨fun h => absurd rfl h, hdown⟩

/-! The modulator (R47 (e)). -/

theorem tickModBody_inRange (hp : p.Legal) {s t : State.Of p} (h : tickModBody s = .next t)
    (hphase : s.modPhase.toNat < p.modCycle) (hindex : s.modIndex.toNat < p.modTableLen) :
    t.modPhase.toNat < p.modCycle ∧ t.modIndex.toNat < p.modTableLen := by
  have hphase' := wrapInc_lt s.modPhase p.modCycle hphase hp.cycle_width
  have hindex' := wrapInc_lt s.modIndex p.modTableLen hindex hp.table_width
  obtain rfl | ⟨b, v, rfl, rfl | ⟨w, rfl, rfl | rfl | ⟨a, rfl⟩⟩⟩ := tickModBody_cases h
  · exact ⟨hphase, hindex⟩
  · exact ⟨hphase', hindex⟩
  · exact ⟨hphase', hindex'⟩
  · exact ⟨hphase', hindex'⟩
  · exact ⟨hphase', hindex'⟩

theorem execOf_modulator (hp : p.Legal) {i : Instr} {s t : State.Of p} (h : execOf p i s = .next t)
    (hphase : s.modPhase.toNat < p.modCycle) (hindex : s.modIndex.toNat < p.modTableLen) :
    t.modPhase.toNat < p.modCycle ∧ t.modIndex.toNat < p.modTableLen := by
  have hw : t = writes i s t := execOf_writes h
  cases i with
  | tickMod r =>
    obtain ⟨-, hb⟩ | ⟨-, rfl⟩ := inRun_next h
    · exact tickModBody_inRange hp hb hphase hindex
    · exact ⟨hphase, hindex⟩
  | reloadEnd r =>
    obtain ⟨f, rfl⟩ | ⟨unit, -, rfl⟩ := execReloadEnd_cases h
    · exact ⟨hphase, hindex⟩
    · exact ⟨Nat.lt_of_lt_of_le Nat.zero_lt_two hp.cycle_two, hp.table_one⟩
  | _ => rw [hw]; exact ⟨hphase, hindex⟩

/-! The Morse cursor (R47 (c), (d), R22, R25). -/

/-- R47 (c) and (d) with R22 and R25: the counters of the Morse engine are below their limits. -/
structure State.Of.CursorInRange (s : State.Of p) : Prop where
  index : s.mode = .run → s.symbolIndex.toNat < s.cfgProgLen.toNat
  rate : s.rateCount.toNat < s.morseUnit.toNat
  units : s.unitsRemaining.toNat ≤ max (max p.unitsDot p.unitsDash) (max (p.unitsLsp - 1) (p.unitsWsp - 1))
  unit : p.wpmConst / p.wpmMax ≤ s.morseUnit.toNat ∧ s.morseUnit.toNat ≤ p.wpmConst / p.wpmMin

theorem keyOn_cursorInRange {s : State.Of p} (h : s.CursorInRange) : s.keyOn.CursorInRange := by
  rw [keyOn_frame]; exact ⟨h.index, h.rate, h.units, h.unit⟩

theorem keyOff_cursorInRange {s : State.Of p} (h : s.CursorInRange) : s.keyOff.CursorInRange := by
  rw [keyOff_frame]; exact ⟨h.index, h.rate, h.units, h.unit⟩

theorem advanceRate_cursorInRange {s : State.Of p} (h : s.CursorInRange) : (advanceRate s).CursorInRange :=
  ⟨h.index, wrapInc_lt s.rateCount _ h.rate (Nat.le_of_lt s.morseUnit.isLt), h.units, h.unit⟩

/-- A restart needs the bounds themselves: 0 is below the length because the cursor was (R171). -/
theorem restartCursor_cursorInRange {s : State.Of p} (h : s.CursorInRange) : (restartCursor s).CursorInRange :=
  ⟨fun hm => Nat.lt_of_le_of_lt (Nat.zero_le _) (h.index hm), Nat.lt_of_le_of_lt (Nat.zero_le _) h.rate, Nat.zero_le _,
    h.unit⟩

/-- The units a symbol loads are in the range of R22, which fits the register (R175 to R178). -/
theorem setUnits_cursorInRange (hp : p.Legal) {s : State.Of p} (h : s.CursorInRange) (n : Nat) (mark : Bool)
    (hn : n ≤ max (max p.unitsDot p.unitsDash) (max (p.unitsLsp - 1) (p.unitsWsp - 1))) :
    State.Of.CursorInRange { s with unitsRemaining := BitVec.ofNat 4 n, curIsMark := mark } := by
  refine ⟨h.index, h.rate, ?_, h.unit⟩
  have hfit : n < 2 ^ 4 := Nat.lt_of_le_of_lt hn hp.units_width
  simpa only [BitVec.toNat_ofNat, Nat.mod_eq_of_lt hfit] using hn

theorem loadSymbol_cursorInRange (hp : p.Legal) (sym : Symbol) {s : State.Of p} (h : s.CursorInRange) :
    (loadSymbol sym s).CursorInRange := by
  cases sym with
  | dot => exact keyOn_cursorInRange (setUnits_cursorInRange hp h p.unitsDot true (by omega))
  | dash => exact keyOn_cursorInRange (setUnits_cursorInRange hp h p.unitsDash true (by omega))
  | lsp => exact setUnits_cursorInRange hp h (p.unitsLsp - 1) false (by omega)
  | wsp => exact setUnits_cursorInRange hp h (p.unitsWsp - 1) false (by omega)

theorem unitStep_cursorInRange (hp : p.Legal) {s t : State.Of p} (hlen : s.cfgProgLen.toNat ≤ p.progMax)
    (h : s.CursorInRange) (ht : unitStep s = .next t) : t.CursorInRange := by
  obtain ⟨-, sym, -, rfl⟩ | ⟨hne, -, rfl⟩ | ⟨-, -, rfl⟩ := unitStep_cases ht
  · have hfit : s.cfgProgLen.toNat ≤ 2 ^ 8 := Nat.le_trans hlen hp.prog_range.2
    have hnext : State.Of.CursorInRange { s with symbolIndex := wrapInc s.symbolIndex s.cfgProgLen.toNat } :=
      ⟨fun hm => wrapInc_lt s.symbolIndex _ (h.index hm) hfit, h.rate, h.units, h.unit⟩
    exact loadSymbol_cursorInRange hp sym hnext
  · have hdown : (s.unitsRemaining - 1).toNat ≤ s.unitsRemaining.toNat := by bv_omega
    exact ⟨h.index, h.rate, Nat.le_trans hdown h.units, h.unit⟩
  · have hzero : State.Of.CursorInRange { s with unitsRemaining := 0, curIsMark := false } :=
      ⟨h.index, h.rate, Nat.zero_le _, h.unit⟩
    exact keyOff_cursorInRange hzero

theorem tickMorseBody_cursorInRange (hp : p.Legal) {s t : State.Of p} (hlen : s.cfgProgLen.toNat ≤ p.progMax)
    (h : s.CursorInRange) (ht : tickMorseBody s = .next t) : t.CursorInRange := by
  obtain rfl | ⟨u, hu, -, ht⟩ := tickMorseBody_cases ht
  · exact h
  have hlen' : u.cfgProgLen.toNat ≤ p.progMax := by obtain rfl | rfl := hu <;> exact hlen
  have hcur : u.CursorInRange := by
    obtain rfl | rfl := hu
    · exact h
    · exact restartCursor_cursorInRange h
  obtain rfl | rfl | ⟨v, rfl | hv, rfl⟩ := ht
  · exact hcur
  · exact keyOn_cursorInRange hcur
  · exact advanceRate_cursorInRange hcur
  · exact advanceRate_cursorInRange (unitStep_cursorInRange hp hlen' hcur hv)

/-- The reload zeroes the cursor and takes the unit of the configured rate, which the legal configuration bounds (R167,
R245). -/
theorem reloadRest_cursorInRange (hp : p.Legal) {wpm : BitVec 8} {unit : Nat} {s : State.Of p}
    (hwpm : wpmInRange p wpm = true) (hunit : convertToUnit p wpm.toNat = some unit) (hlen : 1 ≤ s.cfgProgLen.toNat) :
    (reloadScheduler (reloadMorse unit s)).CursorInRange := by
  obtain ⟨-, rfl⟩ := convertToUnit_eq_some.1 hunit
  obtain ⟨hmin, hmax⟩ := (wpmInRange_iff _ _).1 hwpm
  obtain ⟨hpos, hlow, hhigh, hwidth⟩ := unit_of_rate hp hmin hmax
  have hfit : (BitVec.ofNat 8 (p.wpmConst / wpm.toNat)).toNat = p.wpmConst / wpm.toNat := by
    rw [BitVec.toNat_ofNat, Nat.mod_eq_of_lt hwidth]
  exact ⟨fun _ => hlen, hpos.trans_eq hfit.symm, Nat.zero_le _, hlow.trans_eq hfit.symm, hfit.trans_le hhigh⟩

/-- A program length is written in CONFIG mode only, where the index of the cursor is not yet bound to it (R251). -/
theorem execCfgProgLen_cursorInRange {r : Resp} {len : BitVec 16} {s t : State.Of p} (hs : s.CursorInRange)
    (h : execCfgProgLen r len s = .next t) : t.CursorInRange := by
  refine inConfig_ensures h ⟨hs.index, hs.rate, hs.units, hs.unit⟩ fun hm u hu => ?_
  have hne : s.mode ≠ .run := by rw [hm]; decide
  rw [← Host.Outcome.next.inj hu]
  unfold setProgLen
  split
  · exact ⟨hs.index, hs.rate, hs.units, hs.unit⟩
  · exact ⟨fun hr => absurd hr hne, hs.rate, hs.units, hs.unit⟩

theorem execOf_cursorInRange (hp : p.Legal) {i : Instr} {s t : State.Of p} (hc : s.ConfigLegal) (hs : s.CursorInRange)
    (h : execOf p i s = .next t) : t.CursorInRange := by
  have hw : t = writes i s t := execOf_writes h
  have hanswered : ∀ r f, (s.answered r f []).CursorInRange := fun _ _ => ⟨hs.index, hs.rate, hs.units, hs.unit⟩
  cases i with
  | tickMorse r =>
    exact inRun_ensures h (hanswered r _) fun _ _ hb =>
      tickMorseBody_cursorInRange hp (s := s.startOp r) hc.progLen.2 (hanswered r 0) hb
  | reloadEnd r =>
    obtain ⟨f, rfl⟩ | ⟨unit, hunit, rfl⟩ := execReloadEnd_cases h
    · exact hanswered r f
    · have hlen : (reloadSynth (s.startOp r)).cfgProgLen = s.cfgProgLen := by simp [reloadSynth]
      exact reloadRest_cursorInRange hp hc.wpm hunit (hc.progLen.1.trans_eq (congrArg BitVec.toNat hlen.symm))
  | reloadBegin r => cases h; exact ⟨nofun, hs.rate, hs.units, hs.unit⟩
  | cfgProgLen r len => exact execCfgProgLen_cursorInRange hs h
  | dot => cases h; exact loadSymbol_cursorInRange hp .dot hs
  | dash => cases h; exact loadSymbol_cursorInRange hp .dash hs
  | lsp => cases h; exact loadSymbol_cursorInRange hp .lsp hs
  | wsp => cases h; exact loadSymbol_cursorInRange hp .wsp hs
  | _ => rw [hw]; exact ⟨hs.index, hs.rate, hs.units, hs.unit⟩

/-! The gate (R27, R47 (f), (h)). -/

/-- R27 and R47 (h): in RUN mode `morseRunning` is the registered copy of the gate, and a restart is due to a running
engine only. -/
structure State.Of.GateRegistered (s : State.Of p) : Prop where
  running : s.mode = .run → s.morseRunning = s.gate
  reset : s.resetFlag = true → s.morseRunning = true

/-- `GateUpdate()` registers the gate whatever changed it (R181). -/
theorem gateUpdate_gateRegistered {s : State.Of p} (h : s.resetFlag = true → s.morseRunning = true) :
    s.gateUpdate.GateRegistered := by
  obtain ⟨hg, -, e⟩ | ⟨hg, -, e⟩ | ⟨hg, e⟩ := gateUpdate_cases s <;> rw [e]
  · exact ⟨fun _ => hg.symm, fun _ => rfl⟩
  · rw [keyOff_frame]; exact ⟨fun _ => hg.symm, nofun⟩
  · exact ⟨fun _ => hg.symm, h⟩

theorem rtcArm1_gateRegistered {s : State.Of p} (h : s.GateRegistered) (dt : DateTime) :
    (s.rtcArm1 dt).GateRegistered := by
  rw [rtcArm1_frame]; exact ⟨h.running, h.reset⟩

theorem rtcArm2_gateRegistered {s : State.Of p} (h : s.GateRegistered) (m : Nat) : (s.rtcArm2 m).GateRegistered := by
  rw [rtcArm2_frame]; exact ⟨h.running, h.reset⟩

theorem notify_gateRegistered {s : State.Of p} (h : s.GateRegistered) (c : Note) : (s.notify c).GateRegistered :=
  ⟨h.running, h.reset⟩

theorem noteRetry_gateRegistered {s : State.Of p} (h : s.GateRegistered) : (noteRetry s).GateRegistered :=
  ⟨h.running, h.reset⟩

theorem enterWindow_gateRegistered {s : State.Of p} (h : s.GateRegistered) : (enterWindow s).GateRegistered :=
  notify_gateRegistered
    (gateUpdate_gateRegistered (s := { s.rtcArm1 s.cfgWinStop with winState := .inWindow })
      (rtcArm1_gateRegistered h s.cfgWinStop).reset) .windowEntered

theorem leaveWindow_gateRegistered {s : State.Of p} (h : s.GateRegistered) : (leaveWindow s).GateRegistered :=
  notify_gateRegistered
    (rtcArm1_gateRegistered (gateUpdate_gateRegistered (s := { s with winState := .outOfWindow }) h.reset) _) .windowLeft

theorem evalWindowBody_gateRegistered (now : DateTime) {s : State.Of p} (h : s.GateRegistered) :
    (evalWindowBody now s).GateRegistered := by
  obtain e | e | e | e | ⟨dt, e⟩ := evalWindowBody_cases now s <;> rw [e]
  · exact ⟨h.running, h.reset⟩
  · exact h
  · exact noteRetry_gateRegistered (enterWindow_gateRegistered h)
  · exact noteRetry_gateRegistered (leaveWindow_gateRegistered h)
  · exact noteRetry_gateRegistered (rtcArm1_gateRegistered h dt)

theorem execEvalWindow_gateRegistered {r : Resp} {now : DateTime} {s t : State.Of p} (hs : s.GateRegistered)
    (h : execEvalWindow r now s = .next t) : t.GateRegistered := by
  refine inRun_ensures h ⟨hs.running, hs.reset⟩ fun _ u hu => ?_
  rw [← Host.Outcome.next.inj hu]
  exact evalWindowBody_gateRegistered now (s := s.startOp r) ⟨hs.running, hs.reset⟩

theorem evalSlotBody_gateRegistered {minute : BitVec 6} {s t : State.Of p} (h : s.GateRegistered)
    (ht : evalSlotBody minute s = .next t) : t.GateRegistered := by
  obtain rfl | ⟨b, m, c, rfl⟩ | ⟨u, m, rfl | rfl, rfl⟩ := evalSlotBody_cases ht
  · exact ⟨h.running, h.reset⟩
  · have hedge : (State.Of.gateUpdate { s with withinSlot := b }).GateRegistered := gateUpdate_gateRegistered h.reset
    exact notify_gateRegistered (rtcArm2_gateRegistered hedge m) c
  · exact rtcArm2_gateRegistered h m
  · exact rtcArm2_gateRegistered (s := s.raise .misaligned) ⟨h.running, h.reset⟩ m

theorem keyOn_gateRegistered {s : State.Of p} (h : s.GateRegistered) : s.keyOn.GateRegistered := by
  rw [keyOn_frame]; exact ⟨h.running, h.reset⟩

theorem unitStep_gateRegistered {s t : State.Of p} (h : s.GateRegistered) (ht : unitStep s = .next t) :
    t.GateRegistered := by
  obtain ⟨-, sym, -, rfl⟩ | ⟨-, -, rfl⟩ | ⟨-, -, rfl⟩ := unitStep_cases ht
  · rw [loadSymbol_frame]; exact ⟨h.running, h.reset⟩
  · exact ⟨h.running, h.reset⟩
  · rw [keyOff_frame]; exact ⟨h.running, h.reset⟩

/-- A tick leaves the gate and its copy alone, and a restart only clears the flag (R171). -/
theorem tickMorseBody_gateRegistered {s t : State.Of p} (h : s.GateRegistered) (ht : tickMorseBody s = .next t) :
    t.GateRegistered := by
  have hadvance : ∀ v : State.Of p, v.GateRegistered → (advanceRate v).GateRegistered :=
    fun _ hv => ⟨hv.running, hv.reset⟩
  obtain rfl | ⟨u, hu, -, ht⟩ := tickMorseBody_cases ht
  · exact h
  have hreg : u.GateRegistered := by
    obtain rfl | rfl := hu
    · exact h
    · exact ⟨h.running, nofun⟩
  obtain rfl | rfl | ⟨v, rfl | hv, rfl⟩ := ht
  · exact hreg
  · exact keyOn_gateRegistered hreg
  · exact hadvance v hreg
  · exact hadvance v (unitStep_gateRegistered hreg hv)

/-- In continuous-carrier mode the gate is closed (R180). -/
theorem gate_of_ccBand {s : State.Of p} (h : s.ccBand ≠ .none) : s.gate = false := by
  simp [State.Of.gate, h]

theorem enableCarrierNow_gateRegistered {b : CcBand} (hb : b ≠ .none) (s : State.Of p) :
    (enableCarrierNow b s).GateRegistered :=
  ⟨fun _ => (gate_of_ccBand hb).symm, nofun⟩

theorem disableCarrierNow_gateRegistered {s : State.Of p} (h : s.GateRegistered) :
    (disableCarrierNow s).GateRegistered :=
  gateUpdate_gateRegistered h.reset

theorem reloadRest_gateRegistered (unit : Nat) (s : State.Of p) :
    (reloadScheduler (reloadMorse unit s)).GateRegistered :=
  ⟨fun _ => rfl, nofun⟩

theorem bandOfOperand_ne_none {band : BitVec 2} {b : CcBand} (h : bandOfOperand band = some b) : b ≠ .none := by
  obtain ⟨-, e⟩ | ⟨-, e⟩ | ⟨-, e⟩ := bandOfOperand_cases band <;> rw [e] at h <;> cases h <;> decide

theorem execCcEnable_gateRegistered {r : Resp} {band : BitVec 2} {s t : State.Of p} (hs : s.GateRegistered)
    (h : execCcEnable r band s = .next t) : t.GateRegistered := by
  refine inRun_ensures h ⟨hs.running, hs.reset⟩ fun _ u hu => ?_
  rw [← Host.Outcome.next.inj hu]
  split
  · exact ⟨hs.running, hs.reset⟩
  · next b hb =>
    split
    · exact ⟨hs.running, hs.reset⟩
    · exact gated_ensures (fun _ => ⟨hs.running, hs.reset⟩) fun _ =>
        enableCarrierNow_gateRegistered (bandOfOperand_ne_none hb) _

theorem execCcDisable_gateRegistered {r : Resp} {s t : State.Of p} (hs : s.GateRegistered)
    (h : execCcDisable r s = .next t) : t.GateRegistered := by
  refine inRun_ensures h ⟨hs.running, hs.reset⟩ fun _ u hu => ?_
  rw [← Host.Outcome.next.inj hu]
  split
  · exact ⟨hs.running, hs.reset⟩
  · exact gated_ensures (fun _ => ⟨hs.running, hs.reset⟩) fun _ =>
      disableCarrierNow_gateRegistered (s := s.startOp r) ⟨hs.running, hs.reset⟩

/-- The fox number is written in CONFIG mode only, where the gate is not yet bound to its copy (R257). -/
theorem execCfgSlot_gateRegistered {r : Resp} {n m k : BitVec 4} {s t : State.Of p} (hs : s.GateRegistered)
    (h : execCfgSlot r n m k s = .next t) : t.GateRegistered := by
  refine inConfig_ensures h ⟨hs.running, hs.reset⟩ fun hm u hu => ?_
  have hne : s.mode ≠ .run := by rw [hm]; decide
  rw [← Host.Outcome.next.inj hu]
  unfold setSlot
  split
  · exact ⟨hs.running, hs.reset⟩
  · exact ⟨fun hr => absurd hr hne, hs.reset⟩

theorem execOf_gateRegistered {i : Instr} {s t : State.Of p} (hs : s.GateRegistered) (h : execOf p i s = .next t) :
    t.GateRegistered := by
  have hanswered : ∀ r f, (s.answered r f []).GateRegistered := fun _ _ => ⟨hs.running, hs.reset⟩
  have hw : t = writes i s t := execOf_writes h
  cases i with
  | tickMorse r =>
    exact inRun_ensures h (hanswered r _) fun _ _ hb =>
      tickMorseBody_gateRegistered (s := s.startOp r) (hanswered r 0) hb
  | evalWindow r now => exact execEvalWindow_gateRegistered hs h
  | evalSlot r minute =>
    exact inRun_ensures h (hanswered r _) fun _ _ hb =>
      evalSlotBody_gateRegistered (s := s.startOp r) (hanswered r 0) hb
  | ccEnable r band => exact execCcEnable_gateRegistered hs h
  | ccDisable r => exact execCcDisable_gateRegistered hs h
  | reloadBegin r => cases h; exact ⟨nofun, hs.reset⟩
  | reloadEnd r =>
    obtain ⟨f, rfl⟩ | ⟨unit, -, rfl⟩ := execReloadEnd_cases h
    · exact hanswered r f
    · exact reloadRest_gateRegistered unit _
  | cfgSlot r n m k => exact execCfgSlot_gateRegistered hs h
  | _ => rw [hw]; exact ⟨hs.running, hs.reset⟩

/-! The configuration (R41, R42, R47 (i)). -/

theorem configLegal_of_config_eq {s t : State.Of p} (h : t.config = s.config) (hs : s.ConfigLegal) : t.ConfigLegal := by
  simp only [State.Of.config, Prod.mk.injEq] at h
  obtain ⟨hwpm, -, hlen, -, hfreq, hamp, hnum, hmax, hmin, hstart, hstop, -, htab⟩ := h
  constructor
  · rw [hwpm]; exact hs.wpm
  · rw [hlen]; exact hs.progLen
  · rw [hfreq]; exact hs.freq
  · rw [hamp]; exact hs.ampPct
  · rw [hnum, hmax, hmin]; exact hs.slot
  · rw [hstart]; exact hs.winStart
  · rw [hstop]; exact hs.winStop
  · rw [htab]; exact hs.modTab

/-- A rejected rate is replaced by the default, which is legal (R248). -/
theorem setCfgWpm_configLegal (hp : p.Legal) (value : BitVec 8) {s : State.Of p} (hs : s.ConfigLegal) :
    (setCfgWpm value s).ConfigLegal := by
  unfold setCfgWpm
  split
  · next hv => exact { hs with wpm := hv }
  · have hdefault : wpmInRange p (BitVec.ofNat 8 p.wpmDefault) = true := by
      rw [wpmInRange_iff, BitVec.toNat_ofNat, Nat.mod_eq_of_lt hp.default_width]
      exact hp.default_range
    exact { hs with wpm := hdefault }

/-- A legal length fits the nine bits of its register (R251). -/
theorem setProgLen_configLegal (hp : p.Legal) (len : BitVec 16) {s : State.Of p} (hs : s.ConfigLegal) :
    (setProgLen len s).ConfigLegal := by
  unfold setProgLen
  split
  · exact { hs with }
  · next hv =>
    obtain ⟨hmin, hmax⟩ := (progLenInRange_iff p len).1 (by simpa using hv)
    have hfit : (len.setWidth 9).toNat = len.toNat := by
      have := hp.prog_range.2
      rw [BitVec.toNat_setWidth, Nat.mod_eq_of_lt (by omega)]
    exact { hs with progLen := by rw [hfit]; exact ⟨hmin, hmax⟩ }

theorem setModTab_configLegal (index : BitVec 8) (word : Word) {s : State.Of p} (hs : s.ConfigLegal) :
    (setModTab index word s).ConfigLegal := by
  unfold setModTab
  split
  · exact { hs with }
  · next hv =>
    obtain ⟨-, hword⟩ : ¬ p.modTableLen ≤ index.toNat ∧ ¬ p.ampWordMax < word := by simpa using hv
    refine { hs with modTab := fun i v hi => ?_ }
    rw [Vector.getElem?_setIfInBounds] at hi
    split at hi
    · split at hi
      · rw [← Option.some.inj hi]; exact BitVec.not_lt.1 hword
      · cases hi
    · exact hs.modTab i v hi

theorem setCfgFreq_configLegal (hz : Word) {s : State.Of p} (hs : s.ConfigLegal) : (setCfgFreq hz s).ConfigLegal := by
  unfold setCfgFreq
  split
  · exact { hs with }
  · next hv => exact { hs with freq := by simpa using hv }

theorem setCfgAmp_configLegal (value : BitVec 8) {s : State.Of p} (hs : s.ConfigLegal) :
    (setCfgAmp value s).ConfigLegal := by
  unfold setCfgAmp
  split
  · exact { hs with }
  · next hv => exact { hs with ampPct := by simpa using hv }

theorem setSlot_configLegal (n m k : BitVec 4) {s : State.Of p} (hs : s.ConfigLegal) :
    (setSlot n m k s).ConfigLegal := by
  unfold setSlot
  split
  · exact { hs with }
  · next hv => exact { hs with slot := by simpa using hv }

theorem setWinStart_configLegal (dt : DateTime) {s : State.Of p} (hs : s.ConfigLegal) :
    (setWinStart dt s).ConfigLegal := by
  unfold setWinStart
  split
  · exact { hs with }
  · next hv => exact { hs with winStart := by simpa using hv }

theorem setWinStop_configLegal (dt : DateTime) {s : State.Of p} (hs : s.ConfigLegal) :
    (setWinStop dt s).ConfigLegal := by
  unfold setWinStop
  split
  · exact { hs with }
  · next hv => exact { hs with winStop := by simpa using hv }

theorem inConfig_configLegal {r : Resp} {s t : State.Of p} {f : State.Of p → State.Of p}
    (h : inConfig r s (fun u => .next (f u)) = .next t) (hs : s.ConfigLegal)
    (hf : ∀ u, u.ConfigLegal → (f u).ConfigLegal) : t.ConfigLegal := by
  refine inConfig_ensures h { hs with } fun _ u hu => ?_
  rw [← Host.Outcome.next.inj hu]
  exact hf _ { hs with }

theorem execOf_configLegal (hp : p.Legal) {i : Instr} {s t : State.Of p} (hs : s.ConfigLegal)
    (h : execOf p i s = .next t) : t.ConfigLegal := by
  have hw : t = writes i s t := execOf_writes h
  have hframe : (writes i s t).config = s.config → t.ConfigLegal := fun e =>
    configLegal_of_config_eq ((congrArg State.Of.config hw).trans e) hs
  cases i with
  | cfgWpm r value => exact inConfig_configLegal h hs fun _ => setCfgWpm_configLegal hp value
  | cfgMorseEn r en => exact inConfig_configLegal (f := fun u => { u with cfgMorseEn := en }) h hs fun _ h => { h with }
  | cfgProgLen r len => exact inConfig_configLegal h hs fun _ => setProgLen_configLegal hp len
  | cfgProgSym r index sym =>
    rw [hw]; exact { hs with }
  | cfgModEn r en => exact inConfig_configLegal (f := fun u => { u with cfgModEn := en }) h hs fun _ h => { h with }
  | cfgModTab r index word => exact inConfig_configLegal h hs fun _ => setModTab_configLegal index word
  | cfgFreq r hz => exact inConfig_configLegal h hs fun _ => setCfgFreq_configLegal hz
  | cfgAmp r value => exact inConfig_configLegal h hs fun _ => setCfgAmp_configLegal value
  | cfgSlot r n m k => exact inConfig_configLegal h hs fun _ => setSlot_configLegal n m k
  | cfgWinStart r dt => exact inConfig_configLegal h hs fun _ => setWinStart_configLegal dt
  | cfgWinStop r dt => exact inConfig_configLegal h hs fun _ => setWinStop_configLegal dt
  | _ => exact hframe rfl

/-! All of them. -/

/-- In RUN mode the image agrees after every instruction: it did before, or RELOAD_END has just entered the mode
(R47 (g)). -/
theorem execOf_imageAgrees_of_run {i : Instr} {s t : State.Of p} (hs : s.mode = .run → s.ImageAgrees)
    (h : execOf p i s = .next t) (ht : t.mode = .run) : t.ImageAgrees := by
  cases hm : s.mode with
  | run => exact execOf_imageAgrees h (hs hm)
  | config =>
    have hw : t = writes i s t := execOf_writes h
    have hstay : (writes i s t).mode = s.mode → t.ImageAgrees := fun e =>
      absurd (((congrArg State.Of.mode hw).trans (e.trans hm)).symm.trans ht) (by decide)
    cases i with
    | reloadEnd r => exact execReloadEnd_imageAgrees hm h ht
    | reloadBegin r => cases h; cases ht
    | _ => exact hstay rfl

/-- Every instruction keeps the invariants, group by group. -/
theorem execOf_inv (hp : p.Legal) {i : Instr} {s t : State.Of p} (hs : s.Inv) (h : execOf p i s = .next t) : t.Inv := by
  obtain ⟨hdef, hdown⟩ : t.driver.Sound :=
    execOf_keeps_driver (fun _ h => h) (fun _ _ h => h.sound) h ⟨hs.deferred_claimed, hs.down_unkeyed⟩
  obtain ⟨hphase, hindex⟩ := execOf_modulator hp h hs.phase_in_cycle hs.mod_index_in_table
  have hcursor : t.CursorInRange :=
    execOf_cursorInRange hp hs.config_legal
      ⟨hs.index_in_program, hs.rate_below_unit, hs.units_range, hs.unit_range⟩ h
  have hgate : t.GateRegistered := execOf_gateRegistered ⟨hs.running_is_gate, hs.reset_running⟩ h
  exact
    { deferred_claimed := hdef
      down_unkeyed := hdown
      index_in_program := hcursor.index
      rate_below_unit := hcursor.rate
      phase_in_cycle := hphase
      mod_index_in_table := hindex
      running_gated := fun hm hr => by
        obtain ⟨hwin, -, hband⟩ := (gate_iff t).1 ((hgate.running hm).symm.trans hr)
        exact ⟨hband, hwin⟩
      running_is_gate := hgate.running
      image_agrees := execOf_imageAgrees_of_run hs.image_agrees h
      reset_running := hgate.reset
      config_legal := execOf_configLegal hp hs.config_legal h
      units_range := hcursor.units
      unit_range := hcursor.unit }

/-- The invariants do not speak of the model's own ports (log 1 to log 3). -/
theorem inv_ports {s : State.Of p} (hs : s.Inv) (w : List StimWord) (f : BitVec 8) (o : List OutRecord) :
    State.Of.Inv { s with stimulus := w, flags := f, out := o } :=
  { hs with
    image_agrees := fun hm => { hs.image_agrees hm with }
    config_legal := { hs.config_legal with } }

theorem stepOf_inv (hp : p.Legal) {s t : State.Of p} (hs : s.Inv) (h : stepOf p s = .next t) : t.Inv := by
  unfold stepOf at h
  obtain ⟨-, e⟩ | ⟨w, rest, err, -, -, e⟩ | ⟨w, rest, i, -, -, e⟩ := stepBy_cases (execOf p) s <;> rw [e] at h
  · rw [← Host.Outcome.next.inj h]; exact hs
  · rw [← Host.Outcome.next.inj h]; exact inv_ports hs rest (0 ||| Flag.illegal.mask) []
  · exact execOf_inv hp (inv_ports hs rest s.flags s.out) h

/-- Settles O49: a step waits, answers an illegal word, or runs an instruction, and each instruction keeps every group of
the invariants. -/
theorem invariantKeptByEveryStep : Obligations.InvariantKeptByEveryStep :=
  ⟨fun _ hp _ _ hs h => stepOf_inv hp hs h,
    fun s _ hs h => stepOf_inv Config.params_legal hs ((step_eq_stepOf s).symm.trans h)⟩

end Sys2Proof.Machine

/-! PROOF. The four spaces of spec/20_memory.md: the bytes of a word (R67), the stops outside the ROMs (R61, R62), and the
two chips, which are reached by records only (R63, R64, R66, R71, R74, R92). The part on the chips is one walk over the
operations: each part of an operation sends the chips a list of records, and what is claimed of the records is a claim on
the two elementary sendings, a synthesizer transaction on a free bus and a record that leaves the bus alone. -/

namespace Sys2Proof

/-! ## The bytes of a word (R67) -/

/-- The eight bytes of a word, put together in their order, are the word. -/
theorem append_bytes_eq (w : StimWord) :
    w.extractLsb' 56 8 ++ w.extractLsb' 48 8 ++ w.extractLsb' 40 8 ++ w.extractLsb' 32 8 ++ w.extractLsb' 24 8 ++
      w.extractLsb' 16 8 ++ w.extractLsb' 8 8 ++ w.extractLsb' 0 8 = w := by
  have join (k n : Nat) : w.extractLsb' (k + 8) n ++ w.extractLsb' k 8 = w.extractLsb' k (n + 8) :=
    BitVec.extractLsb'_append_extractLsb'_eq_extractLsb' rfl
  rw [join 48, join 40, join 32, join 24, join 16, join 8, join 0]
  exact BitVec.extractLsb'_eq_self

/-- The bytes of a word and more bytes after them decode as the word does, and the bytes after it are left over (log 17). -/
theorem decodeBytes_wordBytes_append (w : StimWord) (rest : List Byte) :
    decodeBytes (wordBytes w ++ rest) = (decode w).map fun i => (i, rest) := by
  simp only [wordBytes, List.cons_append, List.nil_append, decodeBytes, append_bytes_eq]
  cases decode w <;> rfl

/-- Settles O5: the positions of the bytes are the definition of `wordBytes`, and its eight bytes make the word again. -/
theorem bytesAreBigEndian : Obligations.BytesAreBigEndian := by
  intro w rest
  refine ⟨rfl, rfl, fun k hk => ?_, fun i hi => ?_, fun e he => ?_⟩
  · interval_cases k <;> rfl
  · rw [decodeBytes_wordBytes_append, hi]; rfl
  · rw [decodeBytes_wordBytes_append, he]; rfl

end Sys2Proof

namespace Sys2Proof.Machine

variable {p : Config.Params}

/-! ## Where the spec gives no value (R61, R62, R167, R208) -/

/-- `ProgRead` has no value at or beyond the program's length (R61). -/
theorem progRead_eq_none {s : State.Of p} {i : Nat} (h : s.cfgProgLen.toNat ≤ i) : s.progRead i = none :=
  if_neg (Nat.not_lt.2 h)

/-- `TabRead` has no value beyond the table (R62). -/
theorem tabRead_eq_none {s : State.Of p} {i : Nat} (h : p.modTableLen ≤ i) : s.tabRead i = none :=
  Vector.getElem?_eq_none h

/-- A fetch at or beyond the program's length faults (log 10). -/
theorem tickMorseBody_fault {s : State.Of p} (hrun : s.morseRunning = true) (hreset : s.resetFlag = false)
    (hen : s.cfgMorseEn = true) (hrate : s.rateCount = 0) (hunits : s.unitsRemaining = 0)
    (hindex : s.cfgProgLen.toNat ≤ s.symbolIndex.toNat) : tickMorseBody s = .fault .progReadOutOfRange := by
  have hfetch : unitStep s = .fault .progReadOutOfRange := by
    simp [unitStep, hunits, fetchSymbol, progRead_eq_none hindex]
  simp [tickMorseBody, hrun, hreset, hen, hrate, hfetch, andThen]

/-- A counter that has left its range and does not wrap at its width stays outside. -/
theorem le_wrapInc {x : BitVec 8} {limit : Nat} (hx : limit ≤ x.toNat) (hwidth : x.toNat < 255) :
    limit ≤ (wrapInc x limit).toNat := by
  have hne : x.toNat + 1 ≠ limit := by omega
  rw [wrapInc, if_neg hne]
  bv_omega

/-- The write of a modulation cycle faults where its index has left the table (log 10). -/
theorem modWrite_fault {s : State.Of p} (hfree : s.claimedByReader = false) (hsyn : s.resp.synOk = true)
    (hindex : p.modTableLen ≤ s.modIndex.toNat) (hwidth : s.modIndex.toNat < 255) :
    modWrite s = .fault .tabReadOutOfRange := by
  simp [modWrite, State.Of.tryClaim, hfree, hsyn, tabRead_eq_none (le_wrapInc hindex hwidth)]

theorem tickModBody_fault {s : State.Of p} (hen : s.modulationEnabled = true) (hkeyed : s.keyed = true)
    (hphase : s.modPhase.toNat + 1 = p.modCycle) (hfree : s.claimedByReader = false) (hsyn : s.resp.synOk = true)
    (hindex : p.modTableLen ≤ s.modIndex.toNat) (hwidth : s.modIndex.toNat < 255) :
    tickModBody s = .fault .tabReadOutOfRange := by
  have hwrite : s.modPhase.toNat = p.modCycle - 1 := by omega
  have hfault (b : Bool) : modWrite { s with busAvailable := b } = .fault .tabReadOutOfRange :=
    modWrite_fault hfree hsyn hindex hwidth
  rw [tickModBody, if_neg (by simp [hen, hkeyed])]
  dsimp only
  rw [if_pos hwrite, hfault]
  rfl

/-- The unit of a rate of 0 is refused (R167; log 11). -/
theorem reloadEndBody_refused {s : State.Of p} (hfree : s.claimedByReader = false) (hsyn : s.resp.synOk = true)
    (hwpm : s.cfgWpm = 0) : reloadEndBody s = .refused .unitOfZeroWpm := by
  simp [reloadEndBody, State.Of.tryClaim, hfree, hsyn, hwpm, convertToUnit]

/-- The remainder modulo a `foxMax` of 0 is refused (R208; log 12). -/
theorem evalSlotBody_refused {s : State.Of p} {minute : BitVec 6} (hm : minute.toNat ≤ 59) (hmax : s.cfgFoxMax = 0) :
    evalSlotBody minute s = .refused .slotModuloZero := by
  rw [evalSlotBody, if_neg (Nat.not_lt.2 hm), if_pos hmax]

/-- Settles O36: each operation is its body in the mode that accepts it, and the body stops at the read or the division
that has no value. -/
theorem noValueOutsideTheRoms : Obligations.NoValueOutsideTheRoms := by
  refine ⟨?_, ?_, ?_, ?_⟩
  · intro r s hm hrun hreset hen hrate hunits hindex
    exact (inRun_of_run hm).trans (tickMorseBody_fault hrun hreset hen hrate hunits hindex)
  · intro r s hm hen hkeyed hphase hfree hsyn hindex hwidth
    exact (inRun_of_run hm).trans (tickModBody_fault hen hkeyed hphase hfree hsyn hindex hwidth)
  · intro r s hm hfree hsyn hwpm
    exact (inConfig_of_config hm).trans (reloadEndBody_refused hfree hsyn hwpm)
  · intro r m s hm hminute hmax
    exact (inRun_of_run hm).trans (evalSlotBody_refused hminute hmax)

/-! ## What a part of an operation sends to the chips (R63, R64, R66, R71, R74) -/

/-- What the chips and the shared bus see of a state: the claim, the key, the images and the records written so far. -/
structure BusView where
  claimedByReader : Bool
  keyed : Bool
  chips : ChipImages
  out : List OutRecord

def State.Of.busView (s : State.Of p) : BusView := ⟨s.claimedByReader, s.keyed, s.chips, s.out⟩

/-- From `b` to `e` the records `o` were sent: they stand at the end of the list, they explain the images, their values are
legal where the premise `c` holds, and on a claimed bus none of them drives it and the claim and the key stay. The premise
stands for what only the ranges need: legal parameters and a legal configuration. -/
structure Sent (p : Config.Params) (c : Prop) (b e : BusView) (o : List OutRecord) : Prop where
  out : e.out = b.out ++ o
  chips : e.chips = b.chips.replay o
  legal : c → ∀ q ∈ o, q.legal p
  claimed : b.claimedByReader = true →
    e.claimedByReader = true ∧ e.keyed = b.keyed ∧ ∀ q ∈ o, q.drivesBus = false

/-- From `s` to `t` the chips changed by what was sent to them. -/
def Sends (c : Prop) (s t : State.Of p) : Prop := ∃ o, Sent p c s.busView t.busView o

section

variable {c : Prop}

theorem Sends.refl (s : State.Of p) : Sends c s s :=
  ⟨[], (List.append_nil _).symm, rfl, nofun, fun h => ⟨h, rfl, nofun⟩⟩

theorem Sends.trans {s t u : State.Of p} (h : Sends c s t) (h' : Sends c t u) : Sends c s u := by
  obtain ⟨o, hout, hchips, hlegal, hclaimed⟩ := h
  obtain ⟨o', hout', hchips', hlegal', hclaimed'⟩ := h'
  refine ⟨o ++ o', ?_, ?_, ?_, ?_⟩
  · rw [hout', hout, List.append_assoc]
  · rw [hchips', hchips]
    exact List.foldl_append.symm
  · intro hc q hq
    exact (List.mem_append.1 hq).elim (hlegal hc q) (hlegal' hc q)
  · intro hs
    obtain ⟨ht, hkeyed, hquiet⟩ := hclaimed hs
    obtain ⟨hu, hkeyed', hquiet'⟩ := hclaimed' ht
    exact ⟨hu, hkeyed'.trans hkeyed, fun q hq => (List.mem_append.1 hq).elim (hquiet q) (hquiet' q)⟩

theorem synRecords_legal {q : SynReg} {v : Word} (h : (OutRecord.synW q v).legal p) :
    ∀ o ∈ synRecords q v, o.legal p :=
  List.forall_mem_cons.2 ⟨h, List.forall_mem_singleton.2 trivial⟩

/-- A transaction on a free bus sends a write and its commit, and the key may change with it (R64). -/
theorem synTxn_sends (q : SynReg) (v : Word) (keyed : Bool) {s : State.Of p} (hfree : s.claimedByReader = false)
    (hlegal : c → (OutRecord.synW q v).legal p) : Sends c s { s.synTxn q v with keyed := keyed } :=
  ⟨synRecords q v,
    { out := List.append_assoc _ _ _
      chips := rfl
      legal := fun hc => synRecords_legal (hlegal hc)
      claimed := fun h => absurd (hfree.symm.trans h) (by decide) }⟩

/-- One record that leaves the bus alone: an alarm's new target, or a notification (R66, R92). -/
theorem sends_of_record (o : OutRecord) {s t : State.Of p} (hview : t.busView =
    { s.busView with chips := s.chips.record o, out := s.out ++ [o] }) (hquiet : o.drivesBus = false)
    (hlegal : c → o.legal p) : Sends c s t := by
  refine ⟨[o], ?_⟩
  rw [hview]
  exact ⟨rfl, rfl, fun hc => List.forall_mem_singleton.2 (hlegal hc),
    fun h => ⟨h, rfl, List.forall_mem_singleton.2 hquiet⟩⟩

/-- Records that do not drive the bus change no synthesizer register (R74). -/
theorem replay_syn_of_quiet {o : List OutRecord} (h : ∀ q ∈ o, q.drivesBus = false) (m : ChipImages) :
    (m.replay o).synBuf = m.synBuf ∧ (m.replay o).synAct = m.synAct := by
  induction o generalizing m with
  | nil => exact ⟨rfl, rfl⟩
  | cons q o ih =>
    obtain ⟨hq, ho⟩ := List.forall_mem_cons.1 h
    have hrecord : (m.record q).synBuf = m.synBuf ∧ (m.record q).synAct = m.synAct := by
      cases q with
      | synW | synApply => cases hq
      | rtcA1 | rtcA2 | note => exact ⟨rfl, rfl⟩
    exact ⟨(ih ho _).1.trans hrecord.1, (ih ho _).2.trans hrecord.2⟩

/-! The shared operations. -/

theorem keyOn_sends (s : State.Of p) : Sends c s s.keyOn := by
  obtain ⟨-, e⟩ | ⟨-, -, e⟩ | ⟨-, -, -, e⟩ | ⟨-, hfree, -, e⟩ := keyOn_cases s <;> rw [e]
  · exact .refl s
  · exact .refl s
  · exact .refl s
  · exact synTxn_sends .key keyValueOn true hfree fun _ => .inr rfl

theorem keyOff_sends (s : State.Of p) : Sends c s s.keyOff := by
  obtain ⟨-, e⟩ | ⟨-, -, e⟩ | ⟨hfree, -, e⟩ := keyOff_cases s <;> rw [e]
  · exact .refl s
  · exact .refl s
  · exact synTxn_sends .key keyValueOff false hfree fun _ => .inl rfl

theorem drainDeferred_sends (s : State.Of p) : Sends c s s.drainDeferred := by
  obtain ⟨-, e⟩ | ⟨-, e⟩ | ⟨-, e⟩ := drainDeferred_cases s <;> rw [e]
  · exact .refl s
  · exact keyOn_sends (s.setDeferred .none)
  · exact keyOff_sends (s.setDeferred .none)

theorem gateUpdate_sends (s : State.Of p) : Sends c s s.gateUpdate := by
  obtain ⟨-, -, e⟩ | ⟨-, -, e⟩ | ⟨-, e⟩ := gateUpdate_cases s <;> rw [e]
  · exact .refl s
  · exact keyOff_sends { s with morseRunning := false, resetFlag := false }
  · exact .refl s

theorem gated_sends {s : State.Of p} {act : State.Of p → State.Of p}
    (hact : s.claimedByReader = false → Sends c s (act s)) : Sends c s (s.gated act) :=
  gated_ensures (fun _ => .refl s) hact

theorem notify_sends (n : Note) (s : State.Of p) : Sends c s (s.notify n) :=
  sends_of_record (.note n) rfl rfl fun _ => trivial

theorem rtcArm1_sends {dt : DateTime} (hdt : c → dt.legal p = true) (s : State.Of p) : Sends c s (s.rtcArm1 dt) := by
  obtain ⟨-, e⟩ | ⟨-, e⟩ := rtcArm1_cases dt s <;> rw [e]
  · exact sends_of_record (.rtcA1 dt) rfl rfl hdt
  · exact .refl s

theorem rtcArm2_sends {m : Nat} (hm : m < 60) (s : State.Of p) : Sends c s (s.rtcArm2 m) := by
  obtain ⟨-, e⟩ | ⟨-, e⟩ := rtcArm2_cases m s <;> rw [e]
  · refine sends_of_record (.rtcA2 (BitVec.ofNat 6 m)) rfl rfl fun _ => ?_
    show (BitVec.ofNat 6 m).toNat ≤ 59
    rw [BitVec.toNat_ofNat]
    omega
  · exact .refl s

theorem minuteAfter_lt (m : Nat) : minuteAfter m < 60 := Nat.mod_lt _ (by decide)

theorem nextOn_lt (s : State.Of p) (m : Nat) : s.nextOn m < 60 := Nat.mod_lt _ (by decide)

/-! The Morse engine and the modulation. -/

theorem loadSymbol_sends (sym : Symbol) (s : State.Of p) : Sends c s (loadSymbol sym s) := by
  cases sym with
  | dot => exact keyOn_sends { s with unitsRemaining := BitVec.ofNat 4 p.unitsDot, curIsMark := true }
  | dash => exact keyOn_sends { s with unitsRemaining := BitVec.ofNat 4 p.unitsDash, curIsMark := true }
  | lsp => exact .refl s
  | wsp => exact .refl s

theorem unitStep_sends {s t : State.Of p} (h : unitStep s = .next t) : Sends c s t := by
  obtain ⟨-, sym, -, rfl⟩ | ⟨-, -, rfl⟩ | ⟨-, -, rfl⟩ := unitStep_cases h
  · exact loadSymbol_sends sym { s with symbolIndex := wrapInc s.symbolIndex s.cfgProgLen.toNat }
  · exact .refl s
  · exact keyOff_sends { s with unitsRemaining := 0, curIsMark := false }

theorem tickMorseBody_sends {s t : State.Of p} (h : tickMorseBody s = .next t) : Sends c s t := by
  obtain rfl | ⟨u, hu, -, ht⟩ := tickMorseBody_cases h
  · exact .refl t
  have hsu : Sends c s u := by obtain rfl | rfl := hu <;> exact .refl _
  obtain rfl | rfl | ⟨v, rfl | hv, rfl⟩ := ht
  · exact hsu
  · exact hsu.trans (keyOn_sends u)
  · exact hsu
  · have huv : Sends c u v := unitStep_sends hv
    exact hsu.trans huv

/-- The write of a modulation cycle sends a word of the table (R152). -/
theorem modWrite_sends {s t : State.Of p} (hlegal : c → s.ConfigLegal) (h : modWrite s = .next t) : Sends c s t := by
  unfold modWrite at h
  dsimp only at h
  split at h
  · cases h; exact .refl s
  next hfree =>
    split at h
    · cases h; exact .refl s
    · split at h <;> cases h
      next v hv =>
      have hfree : s.claimedByReader = false := by simpa [State.Of.tryClaim] using hfree
      exact synTxn_sends .amp v s.keyed hfree fun hc => (hlegal hc).modTab _ v hv

theorem tickModBody_sends {s t : State.Of p} (hlegal : c → s.ConfigLegal) (h : tickModBody s = .next t) :
    Sends c s t := by
  unfold tickModBody at h
  split at h
  · cases h; exact .refl s
  · obtain ⟨u, hu, rfl⟩ := andThen_next.1 h
    split at hu
    · have hsu : Sends c { s with busAvailable := decide (s.modPhase.toNat < p.modYield) } u :=
        modWrite_sends (fun hc => { hlegal hc with }) hu
      exact hsu
    · cases hu; exact .refl s

/-! The scheduler. -/

theorem enterWindow_sends {s : State.Of p} (hlegal : c → s.ConfigLegal) : Sends c s (enterWindow s) :=
  ((rtcArm1_sends (fun hc => (hlegal hc).winStop) s).trans
    (gateUpdate_sends { s.rtcArm1 s.cfgWinStop with winState := .inWindow })).trans (notify_sends .windowEntered _)

theorem leaveWindow_sends {s : State.Of p} (hlegal : c → s.ConfigLegal) : Sends c s (leaveWindow s) := by
  have hgate : Sends c s (State.Of.gateUpdate { s with winState := .outOfWindow }) :=
    gateUpdate_sends { s with winState := .outOfWindow }
  refine (hgate.trans (rtcArm1_sends (fun hc => ?_) _)).trans (notify_sends .windowLeft _)
  rw [gateUpdate_frame]
  exact (hlegal hc).winStart

theorem evalWindowBody_sends (now : DateTime) {s : State.Of p} (hlegal : c → s.ConfigLegal) :
    Sends c s (evalWindowBody now s) := by
  have hretry : ∀ u : State.Of p, Sends c u (noteRetry u) := fun u => .refl u
  unfold evalWindowBody
  generalize (if s.windowHolds now then WinState.inWindow else .outOfWindow) = new
  split
  · exact .refl s
  · dsimp only
    split
    · refine .trans ?_ (hretry _)
      split
      · exact enterWindow_sends hlegal
      · exact leaveWindow_sends hlegal
    · split
      · refine .trans (rtcArm1_sends (fun hc => ?_) s) (hretry _)
        split
        · exact (hlegal hc).winStop
        · exact (hlegal hc).winStart
      · exact .refl s

/-- A change of the slot, the alarm of its end, and its notification (R215). -/
theorem slotEdge_sends (within : Bool) {m : Nat} (hm : m < 60) (n : Note) (s : State.Of p) :
    Sends c s (((State.Of.gateUpdate { s with withinSlot := within }).rtcArm2 m).notify n) :=
  ((gateUpdate_sends { s with withinSlot := within } :).trans (rtcArm2_sends hm _)).trans (notify_sends n _)

theorem slotOnBranch_sends (m : Nat) (s : State.Of p) : Sends c s (slotOnBranch m s) := by
  cases hw : s.withinSlot <;> simp only [slotOnBranch, hw]
  · exact slotEdge_sends true (minuteAfter_lt m) .slotOn s
  · exact rtcArm2_sends (minuteAfter_lt m) s

theorem slotOffBranch_sends (m : Nat) (s : State.Of p) : Sends c s (slotOffBranch m s) := by
  cases hw : s.withinSlot <;> simp only [slotOffBranch, hw]
  · exact rtcArm2_sends (nextOn_lt s m) s
  · exact slotEdge_sends false (nextOn_lt _ m) .slotOff s

theorem slotMisaligned_sends (m : Nat) (s : State.Of p) : Sends c s (slotMisaligned m s) := by
  refine rtcArm2_sends (s := s.raise .misaligned) ?_
  split
  · exact minuteAfter_lt m
  · exact nextOn_lt _ m

theorem evalSlotBody_sends {minute : BitVec 6} {s t : State.Of p} (h : evalSlotBody minute s = .next t) :
    Sends c s t := by
  unfold evalSlotBody at h
  split at h
  · cases h; exact .refl s
  · split at h <;> cases h
    split
    · exact slotOnBranch_sends _ s
    · split
      · exact slotOffBranch_sends _ s
      · exact slotMisaligned_sends _ s

/-! The synthesizer driver. -/

theorem setFrequency_sends (hz : Word) (s : State.Of p) : Sends c s (setFrequency hz s) := by
  unfold setFrequency
  split
  · exact .refl s
  · next hrange =>
    have hrange : freqInRange p hz = true := by simpa using hrange
    exact gated_sends fun hfree => synTxn_sends .freq hz s.keyed hfree fun _ => (freqInRange_iff p hz).1 hrange

theorem setAmplitude_sends (hp : c → p.Legal) (value : BitVec 8) (s : State.Of p) :
    Sends c s (setAmplitude value s) := by
  unfold setAmplitude
  split
  · exact .refl s
  · next hrange =>
    have hrange : ampPctInRange p value = true := by simpa using hrange
    exact gated_sends fun hfree =>
      synTxn_sends .amp _ s.keyed hfree fun hc => (hp hc).amp_range _ ((ampPctInRange_iff p value).1 hrange)

theorem powerDownNow_sends {s : State.Of p} (hfree : s.claimedByReader = false) : Sends c s (powerDownNow s) := by
  have hdown : ∀ u : State.Of p, u.claimedByReader = false →
      Sends c u { u.synTxn .power powerDown with poweredDown := true } := fun u hu =>
    synTxn_sends .power powerDown u.keyed hu fun _ => .inr rfl
  unfold powerDownNow
  split
  · have hoff : Sends c s { s.synTxn .key keyValueOff with keyed := false } :=
      synTxn_sends .key keyValueOff false hfree fun _ => .inl rfl
    exact hoff.trans (hdown _ hfree)
  · exact hdown s hfree

theorem enableCarrierNow_sends (band : CcBand) {s : State.Of p} (hfree : s.claimedByReader = false) :
    Sends c s (enableCarrierNow band s) :=
  .trans (t := { s.synTxn .key keyValueOff with keyed := false, ccBand := band })
    (synTxn_sends .key keyValueOff false hfree fun _ => .inl rfl)
    (synTxn_sends .key keyValueOn true hfree fun _ => .inr rfl)

theorem disableCarrierNow_sends {s : State.Of p} (hfree : s.claimedByReader = false) :
    Sends c s (disableCarrierNow s) :=
  .trans (t := { s.synTxn .key keyValueOff with keyed := false, ccBand := .none })
    (synTxn_sends .key keyValueOff false hfree fun _ => .inl rfl) (gateUpdate_sends _)

/-! The reload. -/

/-- The synthesizer group sends its four transactions in the order of R245. -/
theorem reloadSynth_sends (hp : c → p.Legal) {s : State.Of p} (hlegal : c → s.ConfigLegal)
    (hfree : s.claimedByReader = false) : Sends c s (reloadSynth s) := by
  refine ⟨synRecords .power powerUp ++ synRecords .freq s.cfgFreq ++
    synRecords .amp (p.ampWordOfPercent s.cfgAmpPct.toNat) ++ synRecords .key keyValueOff, ?_, rfl, fun hc => ?_,
    fun h => absurd (hfree.symm.trans h) (by decide)⟩
  · simp [State.Of.busView, reloadSynth, synRecords]
  · have hfreq := (freqInRange_iff p s.cfgFreq).1 (hlegal hc).freq
    have hamp := (hp hc).amp_range _ ((ampPctInRange_iff p s.cfgAmpPct).1 (hlegal hc).ampPct)
    simp only [List.forall_mem_append]
    exact ⟨⟨⟨synRecords_legal (.inl rfl), synRecords_legal hfreq⟩, synRecords_legal hamp⟩,
      synRecords_legal (.inl rfl)⟩

theorem reloadEndBody_sends (hp : c → p.Legal) {s t : State.Of p} (hlegal : c → s.ConfigLegal)
    (h : reloadEndBody s = .next t) : Sends c s t := by
  unfold reloadEndBody at h
  split at h
  · cases h; exact .refl s
  next hfree =>
    have hfree : s.claimedByReader = false := by simpa [State.Of.tryClaim] using hfree
    have hrest (unit : Nat) (u : State.Of p) : Sends c u (reloadScheduler (reloadMorse unit u)) := .refl u
    split at h
    · cases h; exact .refl s
    · split at h <;> cases h
      exact (reloadSynth_sends hp hlegal hfree).trans (hrest _ _)

/-! The operations. -/

theorem Sends.inRun {r : Resp} {s t : State.Of p} {body : State.Of p → Host.Outcome (State.Of p) Fault Refusal}
    (h : Machine.inRun r s body = .next t) (hb : ∀ u, body (s.startOp r) = .next u → Sends c (s.startOp r) u) :
    Sends c (s.startOp r) t :=
  inRun_ensures h (.refl (s.startOp r)) fun _ => hb

theorem Sends.inConfig {r : Resp} {s t : State.Of p} {body : State.Of p → Host.Outcome (State.Of p) Fault Refusal}
    (h : Machine.inConfig r s body = .next t) (hb : ∀ u, body (s.startOp r) = .next u → Sends c (s.startOp r) u) :
    Sends c (s.startOp r) t :=
  inConfig_ensures h (.refl (s.startOp r)) fun _ => hb

/-- The mode check around a body that always answers a next state (R283). -/
theorem Sends.inRun_next {r : Resp} {s t : State.Of p} {f : State.Of p → State.Of p}
    (h : Machine.inRun r s (fun u => .next (f u)) = .next t) (hf : Sends c (s.startOp r) (f (s.startOp r))) :
    Sends c (s.startOp r) t :=
  .inRun h fun u hu => by rw [← Host.Outcome.next.inj hu]; exact hf

theorem execSynPwrdown_sends {r : Resp} {s t : State.Of p} (h : execSynPwrdown r s = .next t) :
    Sends c (s.startOp r) t := by
  refine .inRun_next h ?_
  split
  · exact .refl (s.startOp r)
  · exact gated_sends powerDownNow_sends

theorem execCcEnable_sends {r : Resp} {band : BitVec 2} {s t : State.Of p} (h : execCcEnable r band s = .next t) :
    Sends c (s.startOp r) t := by
  refine .inRun_next h ?_
  split
  · exact .refl (s.startOp r)
  · next b _ =>
    split
    · exact .refl (s.startOp r)
    · exact gated_sends (enableCarrierNow_sends b)

theorem execCcDisable_sends {r : Resp} {s t : State.Of p} (h : execCcDisable r s = .next t) :
    Sends c (s.startOp r) t := by
  refine .inRun_next h ?_
  split
  · exact .refl (s.startOp r)
  · exact gated_sends disableCarrierNow_sends

/-- Every operation but the release sends its records from the state with its own response bits, no flags and no
records. The premise `c` of the ranges is given where the parameters and the configuration are legal. -/
theorem execOf_sends (hp : c → p.Legal) {i : Instr} {s t : State.Of p} (hlegal : c → s.ConfigLegal)
    (ho : i.isOperation = true) (hr : ∀ r, i ≠ .readerRelease r) (h : execOf p i s = .next t) :
    Sends c (s.startOp i.resp) t := by
  have hstart (r : Resp) (hc : c) : (s.startOp r).ConfigLegal := configLegal_of_config_eq (s := s) rfl (hlegal hc)
  have hconfig {r : Resp} {f : State.Of p → State.Of p} (h : inConfig r s (fun u => .next (f u)) = .next t)
      (hf : (f (s.startOp r)).busView = (s.startOp r).busView) : Sends c (s.startOp r) t :=
    .inConfig h fun u hu => by
      rw [← Host.Outcome.next.inj hu, Sends, hf]
      exact Sends.refl (s.startOp r)
  cases i with
  | nop r => cases h; exact .refl _
  | tickMorse r => exact .inRun h fun _ => tickMorseBody_sends
  | tickMod r => exact .inRun h fun _ => tickModBody_sends (hstart r)
  | evalWindow r now => exact .inRun_next h (evalWindowBody_sends now (hstart r))
  | evalSlot r minute => exact .inRun h fun _ => evalSlotBody_sends
  | readerClaim r => cases h; exact ⟨[], (List.append_nil _).symm, rfl, nofun, fun _ => ⟨rfl, rfl, nofun⟩⟩
  | readerRelease r => exact absurd rfl (hr r)
  | synSetfreq r hz => exact .inRun_next h (setFrequency_sends hz _)
  | synSetamp r value => exact .inRun_next h (setAmplitude_sends hp value _)
  | synKeyon r => exact .inRun_next h (keyOn_sends _)
  | synKeyoff r => exact .inRun_next h (keyOff_sends _)
  | synPwrdown r => exact execSynPwrdown_sends h
  | synPwrup r =>
    exact .inRun_next h (gated_sends fun hfree => synTxn_sends .power powerUp s.keyed hfree fun _ => .inl rfl)
  | ccEnable r band => exact execCcEnable_sends h
  | ccDisable r => exact execCcDisable_sends h
  | reloadBegin r => cases h; exact .refl (s.startOp r)
  | reloadEnd r => exact .inConfig h fun _ => reloadEndBody_sends hp (hstart r)
  | cfgWpm r value => exact hconfig h (by unfold setCfgWpm; split <;> rfl)
  | cfgMorseEn r en => exact hconfig (f := fun u => { u with cfgMorseEn := en }) h rfl
  | cfgProgLen r len => exact hconfig h (by unfold setProgLen; split <;> rfl)
  | cfgProgSym r index sym => exact hconfig h (by unfold setProgSym; split <;> rfl)
  | cfgModEn r en => exact hconfig (f := fun u => { u with cfgModEn := en }) h rfl
  | cfgModTab r index word => exact hconfig h (by unfold setModTab; split <;> rfl)
  | cfgFreq r hz => exact hconfig h (by unfold setCfgFreq; split <;> rfl)
  | cfgAmp r value => exact hconfig h (by unfold setCfgAmp; split <;> rfl)
  | cfgSlot r n m k => exact hconfig h (by unfold setSlot; split <;> rfl)
  | cfgWinStart r dt => exact hconfig h (by unfold setWinStart; split <;> rfl)
  | cfgWinStop r dt => exact hconfig h (by unfold setWinStop; split <;> rfl)
  | dot | dash | lsp | wsp => exact absurd ho (by decide)

/-- Where no record stood before, the records are what was sent. -/
theorem Sends.records {s t : State.Of p} (h : Sends c s t) (hs : s.out = []) :
    Sent p c s.busView t.busView t.out := by
  obtain ⟨o, ho⟩ := h
  have hout : t.out = s.out ++ o := ho.out
  rw [hs, List.nil_append] at hout
  rw [hout]
  exact ho

/-- The records of every operation, the release among them, explain the chips, and their values are legal where the
parameters and the configuration are. The drain of the release runs on the bus that was set free before it (R105). -/
theorem execOf_records (hp : c → p.Legal) {i : Instr} {s t : State.Of p} (hlegal : c → s.ConfigLegal)
    (ho : i.isOperation = true) (h : execOf p i s = .next t) :
    t.chips = s.chips.replay t.out ∧ (c → ∀ o ∈ t.out, o.legal p) := by
  by_cases hr : ∃ r, i = .readerRelease r
  · obtain ⟨r, rfl⟩ := hr
    cases h
    have hsent := (drainDeferred_sends (c := c) { s.startOp r with claimedByReader := false }).records rfl
    exact ⟨hsent.chips, hsent.legal⟩
  · have hsent := (execOf_sends hp hlegal ho (fun r e => hr ⟨r, e⟩) h).records rfl
    exact ⟨hsent.chips, hsent.legal⟩

end

/-- Settles O53: on a claimed bus nothing that is sent drives it, and records that do not drive it change no synthesizer
register. -/
theorem claimedBusIsNotDriven : Obligations.ClaimedBusIsNotDriven := by
  intro i s t ho hr hclaimed h
  rw [exec_eq_execOf] at h
  have hsent := (execOf_sends (c := False) nofun nofun ho hr h).records rfl
  obtain ⟨hclaim, hkeyed, hquiet⟩ := hsent.claimed hclaimed
  have hchips : t.chips = s.chips.replay t.out := hsent.chips
  obtain ⟨hbuf, hact⟩ := replay_syn_of_quiet hquiet s.chips
  rw [← hchips] at hbuf hact
  exact ⟨hclaim, hbuf, hact, hkeyed, hquiet⟩

/-- Settles O54: the walk over the operations, without its ranges, so that the premise of the ranges is `False`. -/
theorem recordsExplainTheChips : Obligations.RecordsExplainTheChips := by
  intro i s t ho h
  exact (execOf_records (c := False) nofun nofun ho ((exec_eq_execOf i s).symm.trans h)).1

/-- Settles O55: the parameters of this machine are legal, and the invariants hold a legal configuration (R47 (i)). -/
theorem recordsCarryLegalValues : Obligations.RecordsCarryLegalValues := by
  intro i s t hs ho h
  exact (execOf_records (c := True) (fun _ => Config.params_legal) (fun _ => hs.config_legal) ho
    ((exec_eq_execOf i s).symm.trans h)).2 trivial

end Sys2Proof.Machine

/-! PROOF. The decoder and the encoder agree (spec/30_encoding.md R80 to R88). The decoder is held against the
instruction it finds: `i.readFrom w` has the shape of `i` and the fields of the word `w`, and on a word with the opcode
of `i` the decoder answers `i.readFrom w` where the bits above the format of `i` are zero. What is read from an encoded
word is the instruction, what is read from a legal word encodes to the word, and the words with one opcode and zero
reserved bits are the words that match its row. -/

namespace Sys2Proof

/-! ## The format of an instruction (R81) -/

/-- How many payload bits the format of an instruction fills, from bit 0 upwards (R81). -/
def Instr.fieldBits : Instr → Nat
  | .evalWindow _ _ | .cfgWinStart _ _ | .cfgWinStop _ _ => 36
  | .evalSlot _ _ => 6
  | .synSetfreq _ _ | .cfgFreq _ _ => 32
  | .synSetamp _ _ | .cfgWpm _ _ | .cfgAmp _ _ => 8
  | .ccEnable _ _ => 2
  | .cfgMorseEn _ _ | .cfgModEn _ _ => 1
  | .cfgProgLen _ _ => 16
  | .cfgProgSym _ _ _ => 10
  | .cfgModTab _ _ _ => 40
  | .cfgSlot _ _ _ _ => 12
  | _ => 0

/-- The instruction of the shape of `i` with the response bits and the operands that the word `w` carries. -/
def Instr.readFrom (w : StimWord) : Instr → Instr
  | .nop _ => .nop (respOf w)
  | .tickMorse _ => .tickMorse (respOf w)
  | .tickMod _ => .tickMod (respOf w)
  | .evalWindow _ _ => .evalWindow (respOf w) (dateTimeOf w)
  | .evalSlot _ _ => .evalSlot (respOf w) (w.extractLsb' 0 6)
  | .readerClaim _ => .readerClaim (respOf w)
  | .readerRelease _ => .readerRelease (respOf w)
  | .synSetfreq _ _ => .synSetfreq (respOf w) (w.extractLsb' 0 32)
  | .synSetamp _ _ => .synSetamp (respOf w) (w.extractLsb' 0 8)
  | .synKeyon _ => .synKeyon (respOf w)
  | .synKeyoff _ => .synKeyoff (respOf w)
  | .synPwrdown _ => .synPwrdown (respOf w)
  | .synPwrup _ => .synPwrup (respOf w)
  | .ccEnable _ _ => .ccEnable (respOf w) (w.extractLsb' 0 2)
  | .ccDisable _ => .ccDisable (respOf w)
  | .reloadBegin _ => .reloadBegin (respOf w)
  | .reloadEnd _ => .reloadEnd (respOf w)
  | .cfgWpm _ _ => .cfgWpm (respOf w) (w.extractLsb' 0 8)
  | .cfgMorseEn _ _ => .cfgMorseEn (respOf w) (w.getLsbD 0)
  | .cfgProgLen _ _ => .cfgProgLen (respOf w) (w.extractLsb' 0 16)
  | .cfgProgSym _ _ _ => .cfgProgSym (respOf w) (w.extractLsb' 0 8) (symbolOfCode (w.extractLsb' 8 2))
  | .cfgModEn _ _ => .cfgModEn (respOf w) (w.getLsbD 0)
  | .cfgModTab _ _ _ => .cfgModTab (respOf w) (w.extractLsb' 0 8) (w.extractLsb' 8 32)
  | .cfgFreq _ _ => .cfgFreq (respOf w) (w.extractLsb' 0 32)
  | .cfgAmp _ _ => .cfgAmp (respOf w) (w.extractLsb' 0 8)
  | .cfgSlot _ _ _ _ => .cfgSlot (respOf w) (w.extractLsb' 0 4) (w.extractLsb' 4 4) (w.extractLsb' 8 4)
  | .cfgWinStart _ _ => .cfgWinStart (respOf w) (dateTimeOf w)
  | .cfgWinStop _ _ => .cfgWinStop (respOf w) (dateTimeOf w)
  | .dot => .dot
  | .dash => .dash
  | .lsp => .lsp
  | .wsp => .wsp

theorem Instr.fieldBits_le (i : Instr) : i.fieldBits ≤ 54 := by cases i <;> exact Nat.le_of_ble_eq_true rfl

@[simp] theorem Instr.opcode_readFrom (w : StimWord) (i : Instr) : (i.readFrom w).opcode = i.opcode := by
  cases i <;> rfl

@[simp] theorem Instr.fieldBits_readFrom (w : StimWord) (i : Instr) : (i.readFrom w).fieldBits = i.fieldBits := by
  cases i <;> rfl

theorem Instr.resp_readFrom {i : Instr} (w : StimWord) (ho : i.isOperation = true) :
    (i.readFrom w).resp = respOf w := by
  cases i with
  | dot | dash | lsp | wsp => cases ho
  | _ => rfl

/-! ## The decoder (R82, R85) -/

/-- On a word with the opcode of an operation the decoder reads that operation, unless a reserved bit is set. -/
theorem decode_of_opcode {i : Instr} {w : StimWord} (ho : i.isOperation = true) (hw : opcodeOf w = i.opcode) :
    decode w = reservedAbove i.fieldBits w (i.readFrom w) := by
  cases i with
  | dot | dash | lsp | wsp => cases ho
  | _ => unfold decode; rw [hw]; rfl

/-- What the decoder answers is an operation with the opcode of the word: the opcodes outside the table select none. -/
theorem opcode_of_decode {w : StimWord} {i : Instr} (h : decode w = .ok i) :
    i.isOperation = true ∧ opcodeOf w = i.opcode := by
  unfold decode at h
  split at h
  -- the last of the 29 arms is the one outside the table
  on_goal 29 => cases h
  all_goals
    next hc =>
    obtain ⟨-, rfl⟩ := Machine.reservedAbove_eq_ok.1 h
    exact ⟨rfl, BitVec.eq_of_toNat_eq hc⟩

/-- All there is to a legal word: the opcode and the zero bits of its operation, which has the operands of the word. -/
theorem decode_eq_ok_iff {w : StimWord} {i : Instr} :
    decode w = .ok i ↔ i.isOperation = true ∧ opcodeOf w = i.opcode ∧
      w.extractLsb' i.fieldBits (54 - i.fieldBits) = 0 ∧ i.readFrom w = i := by
  constructor
  · intro h
    obtain ⟨ho, hw⟩ := opcode_of_decode h
    rw [decode_of_opcode ho hw] at h
    exact ⟨ho, hw, Machine.reservedAbove_eq_ok.1 h⟩
  · rintro ⟨ho, hw, hread⟩
    rw [decode_of_opcode ho hw]
    exact Machine.reservedAbove_eq_ok.2 hread

/-! ## What is read from an encoded word (R80, R81, R84) -/

/-- A field of the payload that holds `x` is read back as `x`. -/
theorem extract_encode_eq {i : Instr} {k n : Nat} {x : BitVec n} (hk : k + n ≤ 54)
    (h : i.payload / 2 ^ k % 2 ^ n = x.toNat) : (encode i).extractLsb' k n = x := by
  rw [extract_encode i k n hk]
  exact BitVec.eq_of_toNat_eq ((BitVec.toNat_ofNat _ _).trans h)

/-- A payload that is one field is read back whole. -/
theorem extract_encode_whole {i : Instr} {n : Nat} {x : BitVec n} (hn : n ≤ 54) (h : i.payload = x.toNat) :
    (encode i).extractLsb' 0 n = x :=
  extract_encode_eq (by omega) (by rw [h, Nat.pow_zero, Nat.div_one, Nat.mod_eq_of_lt x.isLt])

theorem getLsbD_zero_encode_eq {i : Instr} {b : Bool} (h : i.payload = b.toNat) : (encode i).getLsbD 0 = b := by
  rw [getLsbD_zero_encode, h]
  cases b <;> rfl

theorem dateTimeOf_encode {i : Instr} {d : DateTime} (h : i.payload = d.payload) : dateTimeOf (encode i) = d := by
  obtain ⟨second, minute, hour, date, month, year, weekday⟩ := d
  simp only [DateTime.payload] at h
  simp only [dateTimeOf, DateTime.mk.injEq]
  refine ⟨?_, ?_, ?_, ?_, ?_, ?_, ?_⟩ <;> exact extract_encode_eq (by decide) (by omega)

/-- Every operand and both response bits are read back from the word of the instruction. -/
theorem readFrom_encode (i : Instr) : i.readFrom (encode i) = i := by
  have hresp : respOf (encode i) = i.resp := respOf_encode i
  cases i with
  | dot | dash | lsp | wsp => rfl
  | evalWindow r d | cfgWinStart r d | cfgWinStop r d =>
    rw [Instr.readFrom, hresp, dateTimeOf_encode (d := d) rfl]; rfl
  | evalSlot r x | synSetfreq r x | synSetamp r x | ccEnable r x | cfgWpm r x | cfgProgLen r x | cfgFreq r x
  | cfgAmp r x =>
    rw [Instr.readFrom, hresp, extract_encode_whole (x := x) (by decide) rfl]; rfl
  | cfgMorseEn r en | cfgModEn r en =>
    rw [Instr.readFrom, hresp, getLsbD_zero_encode_eq (b := en) rfl]; rfl
  | cfgProgSym r index sym =>
    rw [Instr.readFrom, hresp, extract_encode_eq (x := index) (by decide) (by rw [Instr.payload]; omega),
      extract_encode_eq (x := sym.code) (by decide) (by rw [Instr.payload]; omega), symbolOfCode_code]
    rfl
  | cfgModTab r index word =>
    rw [Instr.readFrom, hresp, extract_encode_eq (x := index) (by decide) (by rw [Instr.payload]; omega),
      extract_encode_eq (x := word) (by decide) (by rw [Instr.payload]; omega)]
    rfl
  | cfgSlot r n m t =>
    rw [Instr.readFrom, hresp, extract_encode_eq (x := n) (by decide) (by rw [Instr.payload]; omega),
      extract_encode_eq (x := m) (by decide) (by rw [Instr.payload]; omega),
      extract_encode_eq (x := t) (by decide) (by rw [Instr.payload]; omega)]
    rfl
  | _ => rw [Instr.readFrom, hresp]; rfl

/-! ## What a word carries is its payload (R81) -/

theorem toNat_extractLsb' (w : StimWord) (k n : Nat) : (w.extractLsb' k n).toNat = w.toNat / 2 ^ k % 2 ^ n := by
  rw [BitVec.extractLsb'_toNat, Nat.shiftRight_eq_div_pow]

theorem payload_dateTimeOf (w : StimWord) : (dateTimeOf w).payload = w.toNat % 2 ^ 36 := by
  simp only [DateTime.payload, dateTimeOf, toNat_extractLsb']
  omega

/-- The fields of a format are the low bits of the word without a gap, so the payload of what is read is these bits. -/
theorem payload_readFrom (w : StimWord) (i : Instr) : (i.readFrom w).payload = w.toNat % 2 ^ i.fieldBits := by
  have hbit : (w.getLsbD 0).toNat = w.toNat % 2 := by
    rw [← BitVec.testBit_toNat, Nat.toNat_testBit, Nat.pow_zero, Nat.div_one]
  cases i with
  | evalWindow r d | cfgWinStart r d | cfgWinStop r d => exact payload_dateTimeOf w
  | cfgMorseEn r en | cfgModEn r en => exact hbit
  | cfgProgSym r index sym =>
    simp only [Instr.readFrom, Instr.payload, Instr.fieldBits, code_symbolOfCode, toNat_extractLsb']
    omega
  | cfgModTab r index word =>
    simp only [Instr.readFrom, Instr.payload, Instr.fieldBits, toNat_extractLsb']
    omega
  | cfgSlot r n m t =>
    simp only [Instr.readFrom, Instr.payload, Instr.fieldBits, toNat_extractLsb']
    omega
  | evalSlot r x | synSetfreq r x | synSetamp r x | ccEnable r x | cfgWpm r x | cfgProgLen r x | cfgFreq r x
  | cfgAmp r x =>
    simp only [Instr.readFrom, Instr.payload, Instr.fieldBits, toNat_extractLsb', Nat.pow_zero, Nat.div_one]
  | _ => exact (Nat.mod_one _).symm

theorem Instr.payload_lt_fieldBits (i : Instr) : i.payload < 2 ^ i.fieldBits := by
  have h := payload_readFrom (encode i) i
  rw [readFrom_encode] at h
  rw [h]
  exact Nat.mod_lt _ (Nat.two_pow_pos _)

/-- An encoded word has no bit above the format (R85). -/
theorem reserved_encode (i : Instr) : (encode i).extractLsb' i.fieldBits (54 - i.fieldBits) = 0 := by
  have hle := i.fieldBits_le
  refine extract_encode_eq (by omega) ?_
  rw [Nat.div_eq_of_lt i.payload_lt_fieldBits, Nat.zero_mod]
  rfl

/-- A word with no bit above `k` has its payload below (R85). -/
theorem mod_of_reserved {w : StimWord} {k : Nat} (hk : k ≤ 54) (h : w.extractLsb' k (54 - k) = 0) :
    w.toNat % 2 ^ 54 = w.toNat % 2 ^ k := by
  have h0 : w.toNat / 2 ^ k % 2 ^ (54 - k) = 0 := by rw [← toNat_extractLsb', h]; rfl
  calc w.toNat % 2 ^ 54 = w.toNat % (2 ^ k * 2 ^ (54 - k)) := by rw [← Nat.pow_add, Nat.add_sub_cancel' hk]
    _ = w.toNat % 2 ^ k := by rw [Nat.mod_mul, h0, Nat.mul_zero, Nat.add_zero]

/-- A word is its opcode, its response bits and its payload (R80). -/
theorem encode_eq_of_parts {i : Instr} {w : StimWord} (hopcode : i.opcode = opcodeOf w) (hresp : i.resp = respOf w)
    (hpayload : i.payload = w.toNat % 2 ^ 54) : encode i = w := by
  have hop : i.opcode.toNat = w.toNat / 2 ^ 56 % 2 ^ 8 := by rw [hopcode, opcodeOf, toNat_extractLsb']
  have hsyn : i.resp.synOk.toNat = w.toNat / 2 ^ 55 % 2 := by
    rw [hresp, respOf, ← BitVec.testBit_toNat, Nat.toNat_testBit]
  have hrtc : i.resp.rtcOk.toNat = w.toNat / 2 ^ 54 % 2 := by
    rw [hresp, respOf, ← BitVec.testBit_toNat (i := 54), Nat.toNat_testBit]
  have hw := w.isLt
  apply BitVec.eq_of_toNat_eq
  rw [encode_toNat, Instr.header, hpayload, hop, hsyn, hrtc]
  omega

/-- Settles O1: the word of an operation has its opcode and no reserved bit, and what is read from it is the
operation. -/
theorem decodeOfEncodeIsTheInstruction : Obligations.DecodeOfEncodeIsTheInstruction := by
  refine ⟨fun i ho => ?_, fun i hs => ?_⟩
  · exact decode_eq_ok_iff.2 ⟨ho, opcodeOf_encode i, reserved_encode i, readFrom_encode i⟩
  · cases i with
    | dot | dash | lsp | wsp => rfl
    | _ => cases hs

/-- Settles O2: what is read from a legal word has its opcode, its response bits and, the reserved bits being zero, its
payload. -/
theorem encodeOfDecodeIsTheWord : Obligations.EncodeOfDecodeIsTheWord := by
  intro w i h
  obtain ⟨ho, hopcode, hreserved, hread⟩ := decode_eq_ok_iff.1 h
  have hresp : i.resp = respOf w := by rw [← hread, Instr.resp_readFrom w ho]
  have hpayload : i.payload = w.toNat % 2 ^ 54 := by
    rw [mod_of_reserved i.fieldBits_le hreserved, ← payload_readFrom, hread]
  exact ⟨ho, encode_eq_of_parts hopcode.symm hresp hpayload⟩

/-! ## The rows of the opcode table (R83) -/

/-- The mask of a row whose format fills `k` bits: the opcode and the reserved bits (R83). -/
def rowMask (k : Nat) : BitVec 64 :=
  (BitVec.allOnes 64 <<< 56) ||| ((BitVec.allOnes 64 <<< k) &&& (BitVec.allOnes 64 >>> 10))

/-- The row of an operation (R83). -/
def Instr.row (i : Instr) : OpcodeRow := ⟨rowMask i.fieldBits, i.opcode ++ (0 : BitVec 56)⟩

/-- One operation for each row, in the order of the table. -/
def operations : List Instr :=
  let r : Resp := ⟨false, false⟩
  let d : DateTime := ⟨0, 0, 0, 0, 0, 0, 0⟩
  [.nop r, .tickMorse r, .tickMod r, .evalWindow r d, .evalSlot r 0, .readerClaim r, .readerRelease r, .synSetfreq r 0,
   .synSetamp r 0, .synKeyon r, .synKeyoff r, .synPwrdown r, .synPwrup r, .ccEnable r 0, .ccDisable r, .reloadBegin r,
   .reloadEnd r, .cfgWpm r 0, .cfgMorseEn r false, .cfgProgLen r 0, .cfgProgSym r 0 .dot, .cfgModEn r false,
   .cfgModTab r 0 0, .cfgFreq r 0, .cfgAmp r 0, .cfgSlot r 0 0 0, .cfgWinStart r d, .cfgWinStop r d]

theorem opcodeRows_eq : opcodeRows = operations.map Instr.row := by decide

theorem isOperation_of_mem_operations : ∀ i ∈ operations, i.isOperation = true := by decide

/-- The operation of each shape with every bit zero stands for its row. -/
theorem readFrom_zero_mem_operations {i : Instr} (ho : i.isOperation = true) : i.readFrom 0 ∈ operations := by
  cases i with
  | dot | dash | lsp | wsp => cases ho
  | _ => rw [Instr.readFrom]; decide

/-- Every operation has its row in the table. -/
theorem row_mem_opcodeRows {i : Instr} (ho : i.isOperation = true) : i.row ∈ opcodeRows := by
  have hrow : (i.readFrom 0).row = i.row := by simp [Instr.row]
  rw [opcodeRows_eq, ← hrow]
  exact List.mem_map_of_mem (readFrom_zero_mem_operations ho)

/-- Every row of the table is the row of an operation. -/
theorem exists_row_eq {row : OpcodeRow} (h : row ∈ opcodeRows) : ∃ i : Instr, i.isOperation = true ∧ i.row = row := by
  rw [opcodeRows_eq] at h
  obtain ⟨i, hi, rfl⟩ := List.mem_map.1 h
  exact ⟨i, isOperation_of_mem_operations i hi, rfl⟩

theorem getLsbD_rowMask {j : Nat} (k : Nat) (hj : j < 64) :
    (rowMask k).getLsbD j = (decide (56 ≤ j) || (decide (k ≤ j) && decide (j < 54))) := by
  rw [Bool.eq_iff_iff]
  simp only [rowMask, BitVec.getLsbD_or, BitVec.getLsbD_and, BitVec.getLsbD_shiftLeft, BitVec.getLsbD_ushiftRight,
    BitVec.getLsbD_allOnes, Bool.or_eq_true, Bool.and_eq_true, Bool.not_eq_true', decide_eq_true_eq,
    decide_eq_false_iff_not]
  omega

/-- The match of a row, bit by bit: the opcode above bit 55, zeros in the reserved bits, and no demand on the others. -/
theorem and_rowMask_iff_bits {w : StimWord} {c : BitVec 8} {k : Nat} :
    w &&& rowMask k = c ++ (0 : BitVec 56) ↔ ∀ j < 64, (w.getLsbD j &&
      (decide (56 ≤ j) || (decide (k ≤ j) && decide (j < 54)))) = (decide (56 ≤ j) && c.getLsbD (j - 56)) := by
  rw [BitVec.eq_of_getLsbD_eq_iff]
  refine forall₂_congr fun j hj => ?_
  rw [BitVec.getLsbD_and, getLsbD_rowMask k hj, BitVec.getLsbD_append]
  by_cases h : 56 ≤ j
  · simp [h, Nat.not_lt.2 h]
  · simp [h, Nat.not_le.1 h]

/-- A word matches under the mask of a row exactly where it has the opcode of the row and its reserved bits are zero. -/
theorem and_rowMask_iff {w : StimWord} {c : BitVec 8} {k : Nat} (hk : k ≤ 54) :
    w &&& rowMask k = c ++ (0 : BitVec 56) ↔ opcodeOf w = c ∧ w.extractLsb' k (54 - k) = 0 := by
  rw [and_rowMask_iff_bits]
  constructor
  · intro h
    constructor
    · refine BitVec.eq_of_getLsbD_eq fun j hj => ?_
      simpa [opcodeOf, hj] using h (56 + j) (by omega)
    · refine BitVec.eq_of_getLsbD_eq fun j hj => ?_
      have h56 : ¬ 56 ≤ k + j := by omega
      have h54 : k + j < 54 := by omega
      simpa [hj, h56, h54] using h (k + j) (by omega)
  · rintro ⟨rfl, h⟩ j hj
    by_cases h56 : 56 ≤ j
    · have hj8 : j - 56 < 8 := by omega
      simp [opcodeOf, h56, hj8]
    · by_cases hr : k ≤ j ∧ j < 54
      · have hbit := congrArg (fun v => BitVec.getLsbD v (j - k)) h
        have hjk : j - k < 54 - k := by omega
        simpa [h56, hr, hjk] using hbit
      · have hmask : (decide (k ≤ j) && decide (j < 54)) = false := by simpa using hr
        simp [h56, hmask]

theorem matches_row_iff {w : StimWord} {i : Instr} :
    w &&& i.row.mask = i.row.pattern ↔
      opcodeOf w = i.opcode ∧ w.extractLsb' i.fieldBits (54 - i.fieldBits) = 0 :=
  and_rowMask_iff i.fieldBits_le

theorem opcode_eq_of_append {a b : BitVec 8} (h : a ++ (0 : BitVec 56) = b ++ (0 : BitVec 56)) : a = b :=
  (BitVec.append_left_inj _).1 h

/-- A word that matches the row of an operation decodes to that operation with the operands of the word. -/
theorem decode_of_matches_row {w : StimWord} {i : Instr} (ho : i.isOperation = true)
    (h : w &&& i.row.mask = i.row.pattern) : decode w = .ok (i.readFrom w) := by
  obtain ⟨hopcode, hreserved⟩ := matches_row_iff.1 h
  rw [decode_of_opcode ho hopcode]
  exact Machine.reservedAbove_eq_ok.2 ⟨hreserved, rfl⟩

/-- A legal word matches the row of every operation with the opcode of what it decodes to. -/
theorem matches_row_of_opcode {w : StimWord} {i j : Instr} (hi : i.isOperation = true) (hopcode : i.opcode = j.opcode)
    (h : decode w = .ok j) : w &&& i.row.mask = i.row.pattern := by
  have hw : opcodeOf w = i.opcode := by rw [hopcode, (opcode_of_decode h).2]
  rw [decode_of_opcode hi hw] at h
  exact matches_row_iff.2 ⟨hw, (Machine.reservedAbove_eq_ok.1 h).1⟩

/-- Two rows have different opcodes. -/
theorem operations_pairwise : operations.Pairwise fun i j => i.opcode ≠ j.opcode := by decide

/-- Settles O3: the rows are the rows of the operations, a match is the opcode with zero reserved bits, which is what
the decoder asks for, and no two rows have one opcode. -/
theorem decodeSelectsByMaskAndMatch : Obligations.DecodeSelectsByMaskAndMatch := by
  refine ⟨fun w row hrow => ?_, fun w i h => ?_, ?_⟩
  · obtain ⟨i, hi, rfl⟩ := exists_row_eq hrow
    constructor
    · intro h
      refine ⟨i.readFrom w, decode_of_matches_row hi h, ?_⟩
      rw [Instr.opcode_readFrom]
      rfl
    · rintro ⟨j, hj, hpattern⟩
      exact matches_row_of_opcode hi (opcode_eq_of_append hpattern) hj
  · exact ⟨i.row, row_mem_opcodeRows (opcode_of_decode h).1, rfl⟩
  · rw [opcodeRows_eq, List.pairwise_map]
    refine operations_pairwise.imp fun hne w ha hb => hne ?_
    rw [← (matches_row_iff.1 ha).1, (matches_row_iff.1 hb).1]

/-- Settles O4, by evaluation of the decoder. -/
theorem specWordsDecode : Obligations.SpecWordsDecode := by
  unfold Obligations.SpecWordsDecode
  decide

end Sys2Proof

/-! PROOF. The flags LOCKED and ILLEGAL (spec/30_encoding.md R85, R91, spec/60_exceptions.md R283). ILLEGAL is the
answer to a word that selects no operation, LOCKED that of the mode check; no part of an operation sets either one. -/

namespace Sys2Proof.Machine

variable {p : Config.Params}

/-! ## ILLEGAL -/

theorem illegalWord_eq (s : State.Of p) : illegalWord s = { s with flags := Flag.illegal.mask, out := [] } := by
  simp [illegalWord, State.Of.raise]

/-- Settles O8: a word that decodes matches the row of what it decodes to, so that a word with no row is answered by
`illegalWord`. -/
theorem illegalWordOnlySetsIllegal : Obligations.IllegalWordOnlySetsIllegal := by
  intro s w rest hs hrows
  obtain ⟨h0, -⟩ | ⟨w', rest', e, hs', -, hstep⟩ | ⟨w', rest', i, hs', hd, -⟩ := stepBy_cases exec s <;>
    rw [hs] at *
  · cases h0
  · obtain ⟨rfl, rfl⟩ := List.cons.inj hs'
    exact hstep.trans (congrArg _ (illegalWord_eq _))
  · obtain ⟨rfl, rfl⟩ := List.cons.inj hs'
    have ho : i.isOperation = true := (opcode_of_decode hd).1
    exact absurd (matches_row_of_opcode ho rfl hd) (hrows _ (row_mem_opcodeRows ho))

/-! ## What the parts of an operation raise -/

/-- From `s` to `t` neither LOCKED nor ILLEGAL was set or cleared. -/
def KeepsRefusal (s t : State.Of p) : Prop :=
  Flag.locked.isSet t.flags = Flag.locked.isSet s.flags ∧ Flag.illegal.isSet t.flags = Flag.illegal.isSet s.flags

theorem KeepsRefusal.of_flags {s t : State.Of p} (h : t.flags = s.flags) : KeepsRefusal s t := by
  rw [KeepsRefusal, h]; exact ⟨rfl, rfl⟩

theorem KeepsRefusal.refl (s : State.Of p) : KeepsRefusal s s := .of_flags rfl

theorem KeepsRefusal.trans {s t u : State.Of p} (h : KeepsRefusal s t) (h' : KeepsRefusal t u) : KeepsRefusal s u :=
  ⟨h'.1.trans h.1, h'.2.trans h.2⟩

/-- No two flags have one bit (R90). -/
theorem Flag.isSet_mask (f g : Flag) : g.isSet f.mask = decide (f = g) := by cases f <;> cases g <;> rfl

/-- Raising one flag sets no other. -/
theorem isSet_raise_of_ne {f g : Flag} (h : f ≠ g) (s : State.Of p) :
    g.isSet (s.raise f).flags = g.isSet s.flags := by
  have hmask : f.mask.getLsbD g.bit = false := (Flag.isSet_mask f g).trans (decide_eq_false h)
  rw [raise_flags, Flag.isSet, BitVec.getLsbD_or, hmask, Bool.or_false]
  rfl

theorem raise_keepsRefusal (f : Flag) (s : State.Of p) (hf : f ≠ .locked ∧ f ≠ .illegal := by decide) :
    KeepsRefusal s (s.raise f) := ⟨isSet_raise_of_ne hf.1 s, isSet_raise_of_ne hf.2 s⟩

/-! The shared operations. -/

theorem gated_keepsRefusal {s : State.Of p} {act : State.Of p → State.Of p} (hact : KeepsRefusal s (act s)) :
    KeepsRefusal s (s.gated act) := by
  obtain ⟨-, e⟩ | ⟨-, -, e⟩ | ⟨-, -, e⟩ := gated_cases act s <;> rw [e]
  · exact raise_keepsRefusal .busy s
  · exact raise_keepsRefusal .commSyn s
  · exact hact

theorem keyOn_keepsRefusal (s : State.Of p) : KeepsRefusal s s.keyOn := by
  obtain ⟨-, e⟩ | ⟨-, -, e⟩ | ⟨-, -, -, e⟩ | ⟨-, -, -, e⟩ := keyOn_cases s <;> rw [e]
  · exact raise_keepsRefusal .invalid s
  · exact raise_keepsRefusal .deferred (s.setDeferred .turnOn)
  · exact raise_keepsRefusal .commSyn s
  · exact .of_flags rfl

theorem keyOff_keepsRefusal (s : State.Of p) : KeepsRefusal s s.keyOff := by
  obtain ⟨-, e⟩ | ⟨-, -, e⟩ | ⟨-, -, e⟩ := keyOff_cases s <;> rw [e]
  · exact raise_keepsRefusal .deferred (s.setDeferred .turnOff)
  · exact raise_keepsRefusal .commSyn s
  · exact .of_flags rfl

theorem drainDeferred_keepsRefusal (s : State.Of p) : KeepsRefusal s s.drainDeferred := by
  obtain ⟨-, e⟩ | ⟨-, e⟩ | ⟨-, e⟩ := drainDeferred_cases s <;> rw [e]
  · exact .refl s
  · exact keyOn_keepsRefusal (s.setDeferred .none)
  · exact keyOff_keepsRefusal (s.setDeferred .none)

theorem gateUpdate_keepsRefusal (s : State.Of p) : KeepsRefusal s s.gateUpdate := by
  obtain ⟨-, -, e⟩ | ⟨-, -, e⟩ | ⟨-, e⟩ := gateUpdate_cases s <;> rw [e]
  · exact .of_flags rfl
  · exact keyOff_keepsRefusal { s with morseRunning := false, resetFlag := false }
  · exact .refl s

theorem rtcArm1_keepsRefusal (dt : DateTime) (s : State.Of p) : KeepsRefusal s (s.rtcArm1 dt) := by
  obtain ⟨-, e⟩ | ⟨-, e⟩ := rtcArm1_cases dt s <;> rw [e]
  · exact .of_flags rfl
  · exact raise_keepsRefusal .commRtc s

theorem rtcArm2_keepsRefusal (m : Nat) (s : State.Of p) : KeepsRefusal s (s.rtcArm2 m) := by
  obtain ⟨-, e⟩ | ⟨-, e⟩ := rtcArm2_cases m s <;> rw [e]
  · exact .of_flags rfl
  · exact raise_keepsRefusal .commRtc s

/-! The parts of the operations. -/

theorem loadSymbol_keepsRefusal (sym : Symbol) (s : State.Of p) : KeepsRefusal s (loadSymbol sym s) := by
  cases sym with
  | dot => exact keyOn_keepsRefusal { s with unitsRemaining := BitVec.ofNat 4 p.unitsDot, curIsMark := true }
  | dash => exact keyOn_keepsRefusal { s with unitsRemaining := BitVec.ofNat 4 p.unitsDash, curIsMark := true }
  | lsp | wsp => exact .of_flags rfl

theorem unitStep_keepsRefusal {s t : State.Of p} (h : unitStep s = .next t) : KeepsRefusal s t := by
  obtain ⟨-, sym, -, rfl⟩ | ⟨-, -, rfl⟩ | ⟨-, -, rfl⟩ := unitStep_cases h
  · exact loadSymbol_keepsRefusal sym { s with symbolIndex := wrapInc s.symbolIndex s.cfgProgLen.toNat }
  · exact .of_flags rfl
  · exact keyOff_keepsRefusal { s with unitsRemaining := 0, curIsMark := false }

theorem tickMorseBody_keepsRefusal {s t : State.Of p} (h : tickMorseBody s = .next t) : KeepsRefusal s t := by
  have hadvance (v : State.Of p) : KeepsRefusal v (advanceRate v) := .of_flags rfl
  obtain rfl | ⟨u, hu, -, ht⟩ := tickMorseBody_cases h
  · exact .refl t
  have hsu : KeepsRefusal s u := by obtain rfl | rfl := hu <;> exact .of_flags rfl
  obtain rfl | rfl | ⟨v, rfl | hv, rfl⟩ := ht
  · exact hsu
  · exact hsu.trans (keyOn_keepsRefusal u)
  · exact hsu.trans (hadvance v)
  · exact hsu.trans ((unitStep_keepsRefusal hv).trans (hadvance v))

theorem tickModBody_keepsRefusal {s t : State.Of p} (h : tickModBody s = .next t) : KeepsRefusal s t := by
  obtain rfl | ⟨b, v, rfl, rfl | ⟨w, rfl, rfl | rfl | ⟨a, rfl⟩⟩⟩ := tickModBody_cases h
  · exact .of_flags rfl
  · exact .of_flags rfl
  · exact raise_keepsRefusal .busy s
  · exact raise_keepsRefusal .commSyn s
  · exact .of_flags rfl

theorem evalWindowBody_keepsRefusal (now : DateTime) (s : State.Of p) : KeepsRefusal s (evalWindowBody now s) := by
  have hwindow (w : WinState) (u : State.Of p) : KeepsRefusal u (State.Of.gateUpdate { u with winState := w }) :=
    gateUpdate_keepsRefusal { u with winState := w }
  have hend (c : Note) (u : State.Of p) : KeepsRefusal u (noteRetry (u.notify c)) := .of_flags rfl
  obtain e | e | e | e | ⟨dt, e⟩ := evalWindowBody_cases now s <;> rw [e]
  · exact raise_keepsRefusal .invalid s
  · exact .refl s
  · exact ((rtcArm1_keepsRefusal s.cfgWinStop s).trans (hwindow .inWindow _)).trans (hend .windowEntered _)
  · exact ((hwindow .outOfWindow s).trans (rtcArm1_keepsRefusal _ _)).trans (hend .windowLeft _)
  · exact rtcArm1_keepsRefusal dt s

theorem evalSlotBody_keepsRefusal {minute : BitVec 6} {s t : State.Of p} (h : evalSlotBody minute s = .next t) :
    KeepsRefusal s t := by
  have hslot (b : Bool) : KeepsRefusal s (State.Of.gateUpdate { s with withinSlot := b }) :=
    gateUpdate_keepsRefusal { s with withinSlot := b }
  have hnotify (c : Note) (u : State.Of p) : KeepsRefusal u (u.notify c) := .of_flags rfl
  obtain rfl | ⟨b, m, c, rfl⟩ | ⟨u, m, rfl | rfl, rfl⟩ := evalSlotBody_cases h
  · exact raise_keepsRefusal .invalid s
  · exact ((hslot b).trans (rtcArm2_keepsRefusal m _)).trans (hnotify c _)
  · exact rtcArm2_keepsRefusal m u
  · exact (raise_keepsRefusal .misaligned s).trans (rtcArm2_keepsRefusal m _)

theorem powerDownNow_flags (s : State.Of p) : (powerDownNow s).flags = s.flags := by
  unfold powerDownNow; split <;> rfl

theorem enableCarrierNow_flags (band : CcBand) (s : State.Of p) : (enableCarrierNow band s).flags = s.flags := by
  simp [enableCarrierNow]

theorem disableCarrierNow_keepsRefusal (s : State.Of p) : KeepsRefusal s (disableCarrierNow s) :=
  gateUpdate_keepsRefusal { s.synTxn .key keyValueOff with keyed := false, ccBand := .none }

theorem reloadSynth_flags (s : State.Of p) : (reloadSynth s).flags = s.flags := by simp [reloadSynth]

theorem reloadEndBody_keepsRefusal {s t : State.Of p} (h : reloadEndBody s = .next t) : KeepsRefusal s t := by
  obtain rfl | rfl | ⟨unit, -, rfl⟩ := reloadEndBody_cases h
  · exact raise_keepsRefusal .busy s
  · exact raise_keepsRefusal .commSyn s
  · exact .of_flags (reloadSynth_flags s)

/-- A write that is rejected as INVALID or leaves the flags alone (R241). -/
theorem ite_invalid_keepsRefusal {c : Prop} [Decidable c] {s u : State.Of p} (hu : u.flags = s.flags) :
    KeepsRefusal s (if c then s.raise .invalid else u) := by
  split
  · exact raise_keepsRefusal .invalid s
  · exact .of_flags hu

theorem setCfgWpm_keepsRefusal (value : BitVec 8) (s : State.Of p) : KeepsRefusal s (setCfgWpm value s) := by
  unfold setCfgWpm
  split
  · exact .of_flags rfl
  · exact raise_keepsRefusal .invalid { s with cfgWpm := BitVec.ofNat 8 p.wpmDefault }

/-! ## The answers of an operation (R91) -/

/-- `t` is LOCKED and nothing else, or it has neither LOCKED nor ILLEGAL. -/
def LockedOrClear (s t : State.Of p) : Prop :=
  (∃ r, t = s.answered r Flag.locked.mask []) ∨
    (Flag.locked.isSet t.flags = false ∧ Flag.illegal.isSet t.flags = false)

/-- An operation starts with every flag clear (R45). -/
theorem LockedOrClear.of_start {r : Resp} {s t : State.Of p} (h : KeepsRefusal (s.startOp r) t) :
    LockedOrClear s t := by
  have hclear (f : Flag) : f.isSet (s.startOp r).flags = false := by simp [Flag.isSet]
  exact .inr ⟨h.1.trans (hclear .locked), h.2.trans (hclear .illegal)⟩

theorem LockedOrClear.inRun {r : Resp} {s t : State.Of p}
    {body : State.Of p → Host.Outcome (State.Of p) Fault Refusal} (h : Machine.inRun r s body = .next t)
    (hb : ∀ u v, body u = .next v → KeepsRefusal u v) : LockedOrClear s t :=
  inRun_ensures h (.inl ⟨r, rfl⟩) fun _ u hu => .of_start (hb _ u hu)

theorem LockedOrClear.inConfig {r : Resp} {s t : State.Of p}
    {body : State.Of p → Host.Outcome (State.Of p) Fault Refusal} (h : Machine.inConfig r s body = .next t)
    (hb : ∀ u v, body u = .next v → KeepsRefusal u v) : LockedOrClear s t :=
  inConfig_ensures h (.inl ⟨r, rfl⟩) fun _ u hu => .of_start (hb _ u hu)

/-- The mode check around a body that always answers a next state (R283). -/
theorem LockedOrClear.inRun_next {r : Resp} {s t : State.Of p} {f : State.Of p → State.Of p}
    (h : Machine.inRun r s (fun u => .next (f u)) = .next t) (hf : ∀ u, KeepsRefusal u (f u)) : LockedOrClear s t :=
  .inRun h fun u v hv => by rw [← Host.Outcome.next.inj hv]; exact hf u

theorem LockedOrClear.inConfig_next {r : Resp} {s t : State.Of p} {f : State.Of p → State.Of p}
    (h : Machine.inConfig r s (fun u => .next (f u)) = .next t) (hf : ∀ u, KeepsRefusal u (f u)) : LockedOrClear s t :=
  .inConfig h fun u v hv => by rw [← Host.Outcome.next.inj hv]; exact hf u

theorem execSynSetfreq_lockedOrClear {r : Resp} {hz : Word} {s t : State.Of p} (h : execSynSetfreq r hz s = .next t) :
    LockedOrClear s t := by
  refine .inRun_next h fun u => ?_
  unfold setFrequency
  split
  · exact raise_keepsRefusal .invalid u
  · exact gated_keepsRefusal (.of_flags rfl)

theorem execSynSetamp_lockedOrClear {r : Resp} {value : BitVec 8} {s t : State.Of p}
    (h : execSynSetamp r value s = .next t) : LockedOrClear s t := by
  refine .inRun_next h fun u => ?_
  unfold setAmplitude
  split
  · exact raise_keepsRefusal .invalid u
  · exact gated_keepsRefusal (.of_flags rfl)

theorem execSynPwrdown_lockedOrClear {r : Resp} {s t : State.Of p} (h : execSynPwrdown r s = .next t) :
    LockedOrClear s t := by
  refine .inRun_next h fun u => ?_
  split
  · exact raise_keepsRefusal .invalid u
  · exact gated_keepsRefusal (.of_flags (powerDownNow_flags u))

theorem execCcEnable_lockedOrClear {r : Resp} {band : BitVec 2} {s t : State.Of p}
    (h : execCcEnable r band s = .next t) : LockedOrClear s t := by
  refine .inRun_next h fun u => ?_
  split
  · exact raise_keepsRefusal .invalid u
  next b _ =>
    split
    · exact raise_keepsRefusal .invalid u
    · exact gated_keepsRefusal (.of_flags (enableCarrierNow_flags b u))

theorem execCcDisable_lockedOrClear {r : Resp} {s t : State.Of p} (h : execCcDisable r s = .next t) :
    LockedOrClear s t := by
  refine .inRun_next h fun u => ?_
  split
  · exact .refl u
  · exact gated_keepsRefusal (disableCarrierNow_keepsRefusal u)

/-- Every operation is refused by the mode check and does nothing, or sets neither of the two flags. -/
theorem execOf_lockedOrClear {i : Instr} {s t : State.Of p} (ho : i.isOperation = true) (h : execOf p i s = .next t) :
    LockedOrClear s t := by
  cases i with
  | nop r => cases h; exact .of_start (.refl (s.startOp r))
  | tickMorse r => exact .inRun h fun _ _ => tickMorseBody_keepsRefusal
  | tickMod r => exact .inRun h fun _ _ => tickModBody_keepsRefusal
  | evalWindow r now => exact .inRun_next h (evalWindowBody_keepsRefusal now)
  | evalSlot r minute => exact .inRun h fun _ _ => evalSlotBody_keepsRefusal
  | readerClaim r => cases h; exact .of_start (r := r) (.of_flags rfl)
  | readerRelease r =>
    cases h
    exact .of_start (r := r) (drainDeferred_keepsRefusal { s.startOp r with claimedByReader := false })
  | synSetfreq r hz => exact execSynSetfreq_lockedOrClear h
  | synSetamp r value => exact execSynSetamp_lockedOrClear h
  | synKeyon r => exact .inRun_next h keyOn_keepsRefusal
  | synKeyoff r => exact .inRun_next h keyOff_keepsRefusal
  | synPwrdown r => exact execSynPwrdown_lockedOrClear h
  | synPwrup r => exact .inRun_next h fun _ => gated_keepsRefusal (.of_flags rfl)
  | ccEnable r band => exact execCcEnable_lockedOrClear h
  | ccDisable r => exact execCcDisable_lockedOrClear h
  | reloadBegin r => cases h; exact .of_start (r := r) (.of_flags rfl)
  | reloadEnd r => exact .inConfig h fun _ _ => reloadEndBody_keepsRefusal
  | cfgWpm r value => exact .inConfig_next h (setCfgWpm_keepsRefusal value)
  | cfgMorseEn r en => exact .inConfig_next (f := fun u => { u with cfgMorseEn := en }) h fun _ => .of_flags rfl
  | cfgModEn r en => exact .inConfig_next (f := fun u => { u with cfgModEn := en }) h fun _ => .of_flags rfl
  | cfgProgLen r len => exact .inConfig_next h fun u => by unfold setProgLen; exact ite_invalid_keepsRefusal rfl
  | cfgProgSym r index sym => exact .inConfig_next h fun u => by unfold setProgSym; exact ite_invalid_keepsRefusal rfl
  | cfgModTab r index word => exact .inConfig_next h fun u => by unfold setModTab; exact ite_invalid_keepsRefusal rfl
  | cfgFreq r hz => exact .inConfig_next h fun u => by unfold setCfgFreq; exact ite_invalid_keepsRefusal rfl
  | cfgAmp r value => exact .inConfig_next h fun u => by unfold setCfgAmp; exact ite_invalid_keepsRefusal rfl
  | cfgSlot r n m k => exact .inConfig_next h fun u => by unfold setSlot; exact ite_invalid_keepsRefusal rfl
  | cfgWinStart r dt => exact .inConfig_next h fun u => by unfold setWinStart; exact ite_invalid_keepsRefusal rfl
  | cfgWinStop r dt => exact .inConfig_next h fun u => by unfold setWinStop; exact ite_invalid_keepsRefusal rfl
  | dot | dash | lsp | wsp => exact absurd ho (by decide)

/-- Settles O56: LOCKED is set by the mode check only, which does nothing else, and ILLEGAL by no operation. -/
theorem lockedAndIllegalAreExclusive : Obligations.LockedAndIllegalAreExclusive := by
  intro i s t ho h
  obtain ⟨r, rfl⟩ | ⟨hlocked, hillegal⟩ := execOf_lockedOrClear ho ((exec_eq_execOf i s).symm.trans h)
  · have hillegal : Flag.illegal.isSet Flag.locked.mask = false := Flag.isSet_mask .locked .illegal
    exact ⟨hillegal, fun _ => ⟨rfl, rfl, rfl⟩⟩
  · exact ⟨hillegal, fun hset => absurd (hset.symm.trans hlocked) (by decide)⟩

end Sys2Proof.Machine

/-! PROOF. The arbiter (spec/40_arbiter.md R101 to R109). The key primitives on a state that starts an operation answer one
state per fate; the release is the stored one of them on the state with the claim and the slot cleared, and a host key
request on a claimed bus overwrites the slot and nothing else, so that a run of them leaves the last. -/

namespace Sys2Proof.Machine

variable {p : Config.Params}

/-! ## The key primitives at the start of an operation -/

/-- Nothing was raised before, so the one flag is the result (R45). -/
theorem raise_startOp (f : Flag) (r : Resp) (s : State.Of p) : (s.startOp r).raise f = s.answered r f.mask [] := by
  simp [State.Of.raise, State.Of.startOp, State.Of.answered]

/-- The fates of `keyOn()` in order (R122). -/
theorem keyOn_startOp (r : Resp) (s : State.Of p) :
    (s.startOp r).keyOn =
      if s.poweredDown then s.answered r Flag.invalid.mask []
      else if s.claimedByReader then { s.answered r Flag.deferred.mask [] with deferred := .turnOn }
      else if r.synOk then { (s.synHolds .key 1).answered r 0 (synRecords .key 1) with keyed := true }
      else s.answered r Flag.commSyn.mask [] := by
  obtain ⟨hp, e⟩ | ⟨hp, hc, e⟩ | ⟨hp, hc, ho, e⟩ | ⟨hp, hc, ho, e⟩ := keyOn_cases (s.startOp r) <;> rw [e] <;>
    simp only [startOp_poweredDown, startOp_claimedByReader, startOp_resp] at *
  · rw [if_pos hp, raise_startOp]
  · rw [hp, if_neg Bool.false_ne_true, if_pos hc]
    exact raise_startOp .deferred r (s.setDeferred .turnOn)
  · simp [hp, hc, ho, raise_startOp]
  · rw [hp, hc, if_neg Bool.false_ne_true, if_neg Bool.false_ne_true, if_pos ho]
    rfl

/-- The fates of `keyOff()` in order (R123). -/
theorem keyOff_startOp (r : Resp) (s : State.Of p) :
    (s.startOp r).keyOff =
      if s.claimedByReader then { s.answered r Flag.deferred.mask [] with deferred := .turnOff }
      else if r.synOk then { (s.synHolds .key 0).answered r 0 (synRecords .key 0) with keyed := false }
      else s.answered r Flag.commSyn.mask [] := by
  obtain ⟨hc, e⟩ | ⟨hc, ho, e⟩ | ⟨hc, ho, e⟩ := keyOff_cases (s.startOp r) <;> rw [e] <;>
    simp only [startOp_claimedByReader, startOp_resp] at *
  · rw [if_pos hc]
    exact raise_startOp .deferred r (s.setDeferred .turnOff)
  · simp [hc, ho, raise_startOp]
  · rw [hc, if_neg Bool.false_ne_true, if_pos ho]
    rfl

/-! ## The release -/

theorem drainDeferred_of_none {s : State.Of p} (h : s.deferred = .none) : s.drainDeferred = s := by
  simpa [h] using drainDeferred_cases s

theorem drainDeferred_of_turnOn {s : State.Of p} (h : s.deferred = .turnOn) :
    s.drainDeferred = (s.setDeferred .none).keyOn := by simpa [h] using drainDeferred_cases s

theorem drainDeferred_of_turnOff {s : State.Of p} (h : s.deferred = .turnOff) :
    s.drainDeferred = (s.setDeferred .none).keyOff := by simpa [h] using drainDeferred_cases s

/-- `s` as the stored action of a release finds it: the bus free and the slot empty (R103, R105). -/
def State.Of.released (s : State.Of p) : State.Of p := { s with claimedByReader := false, deferred := .none }

theorem released_not_claimed (s : State.Of p) : ¬ s.released.claimedByReader = true := Bool.false_ne_true

theorem exec_readerRelease_of_none {r : Resp} {s : State} (h : s.deferred = .none) :
    exec (.readerRelease r) s = .next { s.answered r 0 [] with claimedByReader := false } :=
  congrArg Host.Outcome.next (drainDeferred_of_none (s := { s.startOp r with claimedByReader := false }) h)

/-- The fates of a stored key-on: those of R122 without the claimed bus. -/
theorem exec_readerRelease_of_turnOn {r : Resp} {s : State} (h : s.deferred = .turnOn) :
    exec (.readerRelease r) s = .next
      (if s.poweredDown then
        { s.answered r Flag.invalid.mask [] with claimedByReader := false, deferred := .none }
      else if r.synOk then
        { (s.synHolds .key 1).answered r 0 (synRecords .key 1) with
          claimedByReader := false, deferred := .none, keyed := true }
      else { s.answered r Flag.commSyn.mask [] with claimedByReader := false, deferred := .none }) := by
  have hdrain : exec (.readerRelease r) s = .next (s.released.startOp r).keyOn :=
    congrArg Host.Outcome.next (drainDeferred_of_turnOn (s := { s.startOp r with claimedByReader := false }) h)
  rw [hdrain, keyOn_startOp, if_neg (released_not_claimed s)]
  rfl

/-- The fates of a stored key-off: those of R123 without the claimed bus. -/
theorem exec_readerRelease_of_turnOff {r : Resp} {s : State} (h : s.deferred = .turnOff) :
    exec (.readerRelease r) s = .next
      (if r.synOk then
        { (s.synHolds .key 0).answered r 0 (synRecords .key 0) with
          claimedByReader := false, deferred := .none, keyed := false }
      else { s.answered r Flag.commSyn.mask [] with claimedByReader := false, deferred := .none }) := by
  have hdrain : exec (.readerRelease r) s = .next (s.released.startOp r).keyOff :=
    congrArg Host.Outcome.next (drainDeferred_of_turnOff (s := { s.startOp r with claimedByReader := false }) h)
  rw [hdrain, keyOff_startOp, if_neg (released_not_claimed s)]
  rfl

/-- Settles O20: each clause is one fate of the stored action. -/
theorem readerReleaseDrainsTheSlot : Obligations.ReaderReleaseDrainsTheSlot := by
  intro r s
  refine ⟨exec_readerRelease_of_none, fun hd hp => ?_, ?_, fun hd hp ho => ?_, fun hd ho => ?_⟩
  · rw [exec_readerRelease_of_turnOn hd, if_pos hp]
  · rintro (⟨hd, hp⟩ | hd) ho
    · rw [exec_readerRelease_of_turnOn hd, if_neg (ne_true_of_eq_false hp), if_neg (ne_true_of_eq_false ho)]
    · rw [exec_readerRelease_of_turnOff hd, if_neg (ne_true_of_eq_false ho)]
  · rw [exec_readerRelease_of_turnOn hd, if_neg (ne_true_of_eq_false hp), if_pos ho]
  · rw [exec_readerRelease_of_turnOff hd, if_pos ho]

/-! ## Host key requests on a claimed bus -/

theorem exec_synKeyon_of_run {r : Resp} {s : State} (hm : s.mode = .run) :
    exec (.synKeyon r) s = .next (s.startOp r).keyOn := inRun_of_run (body := fun u => .next u.keyOn) hm

theorem exec_synKeyoff_of_run {r : Resp} {s : State} (hm : s.mode = .run) :
    exec (.synKeyoff r) s = .next (s.startOp r).keyOff := inRun_of_run (body := fun u => .next u.keyOff) hm

/-- A denied request overwrites the slot, whatever its response bits (R102, R106). -/
theorem exec_keyRequest_of_claimed {on : Bool} {r : Resp} {s : State} (hm : s.mode = .run)
    (hp : s.poweredDown = false) (hc : s.claimedByReader = true) :
    exec (keyRequest on r) s =
      .next { s.answered r Flag.deferred.mask [] with deferred := requestedAction on } := by
  cases on with
  | true => exact (exec_synKeyon_of_run hm).trans (by rw [keyOn_startOp, hp, if_neg Bool.false_ne_true, if_pos hc]; rfl)
  | false => exact (exec_synKeyoff_of_run hm).trans (by rw [keyOff_startOp, if_pos hc]; rfl)

/-- The slot after a list of denied requests that found `d` in it: the last one's action (R109). -/
def slotAfter (d : Deferred) (reqs : List (Bool × Resp)) : Deferred :=
  reqs.getLast?.elim d fun q => requestedAction q.1

theorem slotAfter_cons (d : Deferred) (q : Bool × Resp) (reqs : List (Bool × Resp)) :
    slotAfter d (q :: reqs) = slotAfter (requestedAction q.1) reqs := by
  rw [slotAfter, List.getLast?_cons, slotAfter]
  cases reqs.getLast? <;> rfl

/-- A run of denied requests changes the slot and the outputs only (R109). -/
theorem runOps_keyRequests_of_claimed (reqs : List (Bool × Resp)) {d : Deferred} {s : State} (hm : s.mode = .run)
    (hp : s.poweredDown = false) (hc : s.claimedByReader = true) (hd : s.deferred = d) :
    ∃ r fl o, runOps (reqs.map fun q => keyRequest q.1 q.2) s =
      .next { s.answered r fl o with deferred := slotAfter d reqs } := by
  induction reqs generalizing s d with
  | nil => subst hd; exact ⟨s.resp, s.flags, s.out, rfl⟩
  | cons q reqs ih =>
    obtain ⟨r, fl, o, hrest⟩ := ih
      (s := { s.answered q.2 Flag.deferred.mask [] with deferred := requestedAction q.1 }) hm hp hc rfl
    refine ⟨r, fl, o, ?_⟩
    rw [List.map_cons, runOps, exec_keyRequest_of_claimed hm hp hc, slotAfter_cons]
    exact hrest

/-- Settles O23: the requests after the claim leave the last one's action in the slot, and O20 says what the release makes
of it. -/
theorem onlyTheLastDeniedRequestRuns : Obligations.OnlyTheLastDeniedRequestRuns := by
  intro reqs r0 r1 s hm hp hd ho
  obtain ⟨r, fl, o, hrun⟩ :=
    runOps_keyRequests_of_claimed reqs (s := { s.startOp r0 with claimedByReader := true }) hm hp rfl hd
  obtain ⟨hnone, -, -, hon, hoff⟩ := readerReleaseDrainsTheSlot r1
    { s.answered r fl o with claimedByReader := true, deferred := slotAfter .none reqs }
  unfold slotAfter at *
  generalize reqs.getLast? = last at *
  cases last with
  | none => exact ⟨_, _, hrun, rfl, rfl, rfl, rfl, rfl, hnone rfl, rfl, rfl, rfl, rfl, rfl⟩
  | some q =>
    obtain ⟨_ | _, _⟩ := q
    · exact ⟨_, _, hrun, rfl, rfl, rfl, rfl, rfl, hoff rfl ho, rfl, rfl, rfl, rfl, rfl⟩
    · exact ⟨_, _, hrun, rfl, rfl, rfl, rfl, rfl, hon rfl hp ho, rfl, rfl, rfl, rfl, rfl⟩

end Sys2Proof.Machine

/-! PROOF. The synthesizer driver (spec/41_synth_driver.md R121 to R131). The two key operations are the key primitives at
the start of an operation. The others run their checks in the order of R121: past the range and the precondition the
common gating answers one state per fate, and the action on a free bus is a sequence of transactions, which on a started
operation leaves an image and its records. -/

namespace Sys2Proof.Machine

variable {p : Config.Params}

/-! ## The gating and the transactions at the start of an operation -/

/-- The fates of the common gating in order (R121). -/
theorem gated_startOp (act : State.Of p → State.Of p) (r : Resp) (s : State.Of p) :
    (s.startOp r).gated act =
      if s.claimedByReader then s.answered r Flag.busy.mask []
      else if r.synOk then act (s.startOp r)
      else s.answered r Flag.commSyn.mask [] := by
  obtain ⟨hc, e⟩ | ⟨hc, ho, e⟩ | ⟨hc, ho, e⟩ := gated_cases act (s.startOp r) <;> rw [e] <;>
    simp only [startOp_claimedByReader, startOp_resp] at *
  · rw [if_pos hc, raise_startOp]
  · rw [hc, ho, if_neg Bool.false_ne_true, if_neg Bool.false_ne_true, raise_startOp]
  · rw [hc, if_neg Bool.false_ne_true, if_pos ho]

theorem gated_startOp_of_claimed {act : State.Of p → State.Of p} {r : Resp} {s : State.Of p}
    (hc : s.claimedByReader = true) : (s.startOp r).gated act = s.answered r Flag.busy.mask [] := by
  rw [gated_startOp, if_pos hc]

theorem gated_startOp_of_failed {act : State.Of p → State.Of p} {r : Resp} {s : State.Of p}
    (hc : s.claimedByReader = false) (ho : r.synOk = false) :
    (s.startOp r).gated act = s.answered r Flag.commSyn.mask [] := by
  rw [gated_startOp, if_neg (ne_true_of_eq_false hc), if_neg (ne_true_of_eq_false ho)]

theorem gated_startOp_of_done {act : State.Of p → State.Of p} {r : Resp} {s : State.Of p}
    (hc : s.claimedByReader = false) (ho : r.synOk = true) : (s.startOp r).gated act = act (s.startOp r) := by
  rw [gated_startOp, if_neg (ne_true_of_eq_false hc), if_pos ho]

/-- A transaction at the start of an operation: its two records are all that was sent (R64). -/
theorem synTxn_startOp (q : SynReg) (v : Word) (r : Resp) (s : State.Of p) :
    (s.startOp r).synTxn q v = (s.synHolds q v).answered r 0 (synRecords q v) := rfl

/-- The later of two writes to one register is what the image holds (R43). -/
theorem synHolds_synHolds_self (q : SynReg) (v w : Word) (s : State.Of p) :
    (s.synHolds q v).synHolds q w = s.synHolds q w := by
  have hset : (s.synBuf.set q v).set q w = s.synBuf.set q w := by cases q <;> rfl
  rw [State.Of.synHolds, State.Of.synHolds, hset]
  rfl

/-- Two transactions on one register leave the later value and the records of both (R64). -/
theorem synTxn_synTxn_self_startOp (q : SynReg) (v w : Word) (r : Resp) (s : State.Of p) :
    ((s.startOp r).synTxn q v).synTxn q w = (s.synHolds q w).answered r 0 (synRecords q v ++ synRecords q w) := by
  rw [synTxn_startOp, ← synHolds_synHolds_self q v w]
  rfl

/-! ## The key operations -/

/-- Settles O21: the operation is the primitive, whose fates are those of R122. -/
theorem synKeyonKeysOrDefers : Obligations.SynKeyonKeysOrDefers := by
  intro r s hm
  rw [exec_synKeyon_of_run hm, keyOn_startOp]
  refine ⟨fun hp => ?_, fun hp hc => ?_, fun hp hc ho => ?_, fun hp hc ho => ?_⟩
  · rw [if_pos hp]
  · rw [if_neg (ne_true_of_eq_false hp), if_pos hc]
  · rw [if_neg (ne_true_of_eq_false hp), if_neg (ne_true_of_eq_false hc), if_neg (ne_true_of_eq_false ho)]
  · rw [if_neg (ne_true_of_eq_false hp), if_neg (ne_true_of_eq_false hc), if_pos ho]

/-- Settles O22: the operation is the primitive, whose fates are those of R123. -/
theorem synKeyoffKeysOrDefers : Obligations.SynKeyoffKeysOrDefers := by
  intro r s hm
  rw [exec_synKeyoff_of_run hm, keyOff_startOp]
  refine ⟨fun hc => ?_, fun hc ho => ?_, fun hc ho => ?_⟩
  · rw [if_pos hc]
  · rw [if_neg (ne_true_of_eq_false hc), if_neg (ne_true_of_eq_false ho)]
  · rw [if_neg (ne_true_of_eq_false hc), if_pos ho]

/-! ## The frequency and the amplitude -/

theorem exec_synSetfreq_of_run {r : Resp} {hz : Word} {s : State} (hm : s.mode = .run) :
    exec (.synSetfreq r hz) s = .next (setFrequency hz (s.startOp r)) :=
  inRun_of_run (body := fun u => .next (setFrequency hz u)) hm

theorem exec_synSetamp_of_run {r : Resp} {value : BitVec 8} {s : State} (hm : s.mode = .run) :
    exec (.synSetamp r value) s = .next (setAmplitude value (s.startOp r)) :=
  inRun_of_run (body := fun u => .next (setAmplitude value u)) hm

/-- R126: the frequencies that are refused. -/
theorem not_freqInRange_iff (p : Config.Params) (hz : Word) :
    (!freqInRange p hz) = true ↔ hz < p.freqMin ∨ p.freqMax < hz := by
  simp [freqInRange, -Bool.decide_and]

/-- R127: the percentages that are refused. -/
theorem not_ampPctInRange_iff (p : Config.Params) (value : BitVec 8) :
    (!ampPctInRange p value) = true ↔ p.ampPctMax < value.toNat := by
  simp [ampPctInRange]

/-- Settles O24: the range check, then the fates of the gating around one transaction. -/
theorem synSetWritesTheImage : Obligations.SynSetWritesTheImage := by
  intro r hz value s hm
  constructor
  · rw [exec_synSetfreq_of_run hm]
    simp only [setFrequency, not_freqInRange_iff, raise_startOp, gated_startOp, synTxn_startOp]
  · rw [exec_synSetamp_of_run hm]
    simp only [setAmplitude, not_ampPctInRange_iff, Config.params_ampPctMax, raise_startOp, gated_startOp,
      synTxn_startOp]

/-! ## The power operations -/

theorem exec_synPwrdown_of_run {r : Resp} {s : State} (hm : s.mode = .run) :
    exec (.synPwrdown r) s = .next
      (if s.ccBand ≠ .none then (s.startOp r).raise .invalid else (s.startOp r).gated powerDownNow) :=
  inRun_of_run (body := fun u => .next (if u.ccBand ≠ .none then u.raise .invalid else u.gated powerDownNow)) hm

theorem exec_synPwrup_of_run {r : Resp} {s : State} (hm : s.mode = .run) :
    exec (.synPwrup r) s =
      .next ((s.startOp r).gated fun u => { u.synTxn .power powerUp with poweredDown := false }) :=
  inRun_of_run (body := fun u => .next (u.gated fun v => { v.synTxn .power powerUp with poweredDown := false })) hm

theorem powerDownNow_of_unkeyed {s : State.Of p} (hk : s.keyed = false) :
    powerDownNow s = { s.synTxn .power powerDown with poweredDown := true } := by
  rw [powerDownNow, if_neg (ne_true_of_eq_false hk)]

/-- Key-off comes before power-down (R128). -/
theorem powerDownNow_of_keyed {s : State.Of p} (hk : s.keyed = true) :
    powerDownNow s =
      { (s.synTxn .key keyValueOff).synTxn .power powerDown with keyed := false, poweredDown := true } := by
  rw [powerDownNow, if_pos hk]
  rfl

/-- Settles O25: the precondition of SYN_PWRDOWN, then the fates of the gating around each of the two actions. -/
theorem synPowerDownAndUp : Obligations.SynPowerDownAndUp := by
  intro r s hm
  rw [exec_synPwrdown_of_run hm, exec_synPwrup_of_run hm, raise_startOp]
  refine ⟨fun hb => ?_, fun hb hc => ?_, fun hb hc ho => ?_, fun hb hc ho hk => ?_, fun hb hc ho hk => ?_, fun hc => ?_,
    fun hc ho => ?_, fun hc ho => ?_⟩
  · rw [if_pos hb]
  · rw [if_neg (not_not.2 hb), gated_startOp_of_claimed hc]
  · rw [if_neg (not_not.2 hb), gated_startOp_of_failed hc ho]
  · rw [if_neg (not_not.2 hb), gated_startOp_of_done hc ho, powerDownNow_of_unkeyed (s := s.startOp r) hk]
    rfl
  · rw [if_neg (not_not.2 hb), gated_startOp_of_done hc ho, powerDownNow_of_keyed (s := s.startOp r) hk]
    rfl
  · rw [gated_startOp_of_claimed hc]
  · rw [gated_startOp_of_failed hc ho]
  · rw [gated_startOp_of_done hc ho]
    rfl

/-! ## The continuous carrier -/

theorem exec_ccEnable_of_no_band {r : Resp} {band : BitVec 2} {s : State} (hm : s.mode = .run)
    (hb : bandOfOperand band = none) : exec (.ccEnable r band) s = .next (s.answered r Flag.invalid.mask []) := by
  change execCcEnable r band s = _
  rw [execCcEnable, inRun_of_run hm, hb, raise_startOp]

theorem exec_ccEnable_of_band {r : Resp} {band : BitVec 2} {b : CcBand} {s : State} (hm : s.mode = .run)
    (hb : bandOfOperand band = some b) :
    exec (.ccEnable r band) s = .next
      (if s.poweredDown then s.answered r Flag.invalid.mask [] else (s.startOp r).gated (enableCarrierNow b)) := by
  change execCcEnable r band s = _
  rw [execCcEnable, inRun_of_run hm, hb, raise_startOp]
  rfl

/-- The bands CC_ENABLE takes, by their code (R33, R130). -/
theorem exists_bandOfOperand {band : BitVec 2} (h : band = 1 ∨ band = 2) :
    ∃ b : CcBand, b.code = band ∧ bandOfOperand band = some b := by
  obtain rfl | rfl := h
  · exact ⟨.band2m, rfl, rfl⟩
  · exact ⟨.band80m, rfl, rfl⟩

/-- The two transactions of CC_ENABLE, on any state (R130). -/
theorem enableCarrierNow_eq (b : CcBand) (s : State.Of p) :
    enableCarrierNow b s = { (s.synTxn .key keyValueOff).synTxn .key keyValueOn with
      ccBand := b, keyed := true, morseRunning := false, resetFlag := false } := rfl

/-- The key-off and the key-on leave the image of the key-on and the records of both (R130). -/
theorem enableCarrierNow_startOp (b : CcBand) (r : Resp) (s : State.Of p) :
    enableCarrierNow b (s.startOp r) =
      { (s.synHolds .key 1).answered r 0 (synRecords .key 0 ++ synRecords .key 1) with
        ccBand := b, keyed := true, morseRunning := false, resetFlag := false } := by
  rw [enableCarrierNow_eq, synTxn_synTxn_self_startOp]
  rfl

/-- Settles O26: the band and the power checks, then the fates of the gating around the forced carrier. -/
theorem ccEnableForcesTheCarrier : Obligations.CcEnableForcesTheCarrier := by
  intro r band s hm
  refine ⟨fun h => ?_, fun hband hp hc => ?_, fun hband hp hc ho => ?_, fun hband hp hc ho => ?_⟩
  · rcases hb : bandOfOperand band with _ | b
    · exact exec_ccEnable_of_no_band hm hb
    · have hp : s.poweredDown = true := by
        obtain rfl | rfl | hp := h
        · cases hb
        · cases hb
        · exact hp
      rw [exec_ccEnable_of_band hm hb, if_pos hp]
  · obtain ⟨b, -, hb⟩ := exists_bandOfOperand hband
    rw [exec_ccEnable_of_band hm hb, if_neg (ne_true_of_eq_false hp), gated_startOp_of_claimed hc]
  · obtain ⟨b, -, hb⟩ := exists_bandOfOperand hband
    rw [exec_ccEnable_of_band hm hb, if_neg (ne_true_of_eq_false hp), gated_startOp_of_failed hc ho]
  · obtain ⟨b, hcode, hb⟩ := exists_bandOfOperand hband
    refine ⟨b, hcode, ?_⟩
    rw [exec_ccEnable_of_band hm hb, if_neg (ne_true_of_eq_false hp), gated_startOp_of_done hc ho,
      enableCarrierNow_startOp]

theorem exec_ccDisable_of_run {r : Resp} {s : State} (hm : s.mode = .run) :
    exec (.ccDisable r) s = .next
      (if s.ccBand = .none then s.startOp r else (s.startOp r).gated disableCarrierNow) :=
  inRun_of_run (body := fun u => .next (if u.ccBand = .none then u else u.gated disableCarrierNow)) hm

/-- A stopped engine is started by an open gate and by nothing else (R181). -/
theorem gateUpdate_of_stopped {s : State.Of p} (hs : s.morseRunning = false) :
    s.gateUpdate = if s.gate then { s with morseRunning := true, resetFlag := true } else s := by
  obtain ⟨hg, -, e⟩ | ⟨-, hr, -⟩ | ⟨hg, e⟩ := gateUpdate_cases s
  · rw [e, if_pos hg]
  · exact absurd (hs.symm.trans hr) Bool.false_ne_true
  · rw [e, if_neg (ne_true_of_eq_false (hg.trans hs))]

/-- `s` with the carrier keyed off and the band cleared, as CC_DISABLE leaves it to the gate (R131). -/
def State.Of.carrierReleased (r : Resp) (s : State.Of p) : State.Of p :=
  { (s.synHolds .key 0).answered r 0 (synRecords .key 0) with keyed := false, ccBand := .none }

/-- With the band cleared the window and the slot alone hold the gate (R180). -/
theorem gate_carrierReleased (r : Resp) (s : State.Of p) :
    (s.carrierReleased r).gate = true ↔ s.winState = .inWindow ∧ (s.cfgFoxNumber = 0 ∨ s.withinSlot = true) := by
  rw [gate_iff]
  simp [State.Of.carrierReleased, State.Of.answered, State.Of.synHolds]

/-- The end of CC_DISABLE where the engine is stopped, as it is in the mode (R47 (f), R131). -/
theorem disableCarrierNow_startOp {r : Resp} {s : State.Of p} (hs : s.morseRunning = false) :
    disableCarrierNow (s.startOp r) =
      if (s.carrierReleased r).gate then { s.carrierReleased r with morseRunning := true, resetFlag := true }
      else s.carrierReleased r :=
  gateUpdate_of_stopped (s := s.carrierReleased r) hs

/-- Settles O27: outside the mode nothing, else the fates of the gating, and the gate decides whether the engine starts. -/
theorem ccDisableRestoresKeying : Obligations.CcDisableRestoresKeying := by
  intro r s hm
  rw [exec_ccDisable_of_run hm]
  refine ⟨fun hb => ?_, fun hb hc => ?_, fun hb hc ho => ?_, fun hb hc ho hs hopen => ?_, fun hb hc ho hs hclosed => ?_⟩
  · rw [if_pos hb, startOp_eq]
  · rw [if_neg hb, gated_startOp_of_claimed hc]
  · rw [if_neg hb, gated_startOp_of_failed hc ho]
  · rw [if_neg hb, gated_startOp_of_done hc ho, disableCarrierNow_startOp hs,
      if_pos ((gate_carrierReleased r s).2 hopen)]
    rfl
  · rw [if_neg hb, gated_startOp_of_done hc ho, disableCarrierNow_startOp hs,
      if_neg (mt (gate_carrierReleased r s).1 hclosed)]
    rfl

end Sys2Proof.Machine

/-! PROOF. The modulation engine (spec/42_modulation.md R150 to R156). A tick of the running engine counts the phase, and at
the end of the cycle it also advances the index and sends one sample under the common gating of the driver, on an operation
that has only started. The gating never touches the two counters, so over a run they count whatever it answers. -/

namespace Sys2Proof.Machine

variable {p : Config.Params}

/-! ## One tick -/

theorem wrapInc_of_ne {n : Nat} {x : BitVec n} {limit : Nat} (h : x.toNat + 1 ≠ limit) : wrapInc x limit = x + 1 :=
  if_neg h

theorem wrapInc_of_eq {n : Nat} {x : BitVec n} {limit : Nat} (h : x.toNat + 1 = limit) : wrapInc x limit = 0 := if_pos h

/-- What a cycle does with its sample `v`: the index moves, then one transaction under the common gating (R152, R154). -/
def sampleTaken (v : Word) (s : State.Of p) : State.Of p :=
  State.Of.gated (.synTxn .amp v) { s with modIndex := wrapInc s.modIndex p.modTableLen }

theorem modWrite_eq_sampleTaken {s : State.Of p} {v : Word}
    (hv : s.tabRead (wrapInc s.modIndex p.modTableLen).toNat = some v) : modWrite s = .next (sampleTaken v s) := by
  rw [State.Of.tabRead] at hv
  unfold modWrite sampleTaken State.Of.gated State.Of.tryClaim State.Of.tabRead
  dsimp only
  cases s.claimedByReader
  · cases s.resp.synOk
    · rfl
    · simp [hv]
  · rfl

/-- The gating around a transaction leaves the two counters as they are: denied, failed or done. -/
theorem gated_synTxn_counters (q : SynReg) (v : Word) (s : State.Of p) :
    (s.gated (.synTxn q v)).modPhase = s.modPhase ∧ (s.gated (.synTxn q v)).modIndex = s.modIndex := by
  obtain ⟨-, e⟩ | ⟨-, -, e⟩ | ⟨-, -, e⟩ := gated_cases (.synTxn q v) s <;> rw [e] <;> exact ⟨rfl, rfl⟩

theorem sampleTaken_modPhase (v : Word) (s : State.Of p) : (sampleTaken v s).modPhase = s.modPhase :=
  (gated_synTxn_counters .amp v _).1

theorem sampleTaken_modIndex (v : Word) (s : State.Of p) :
    (sampleTaken v s).modIndex = wrapInc s.modIndex p.modTableLen := (gated_synTxn_counters .amp v _).2

/-- The idle engine (R151). -/
theorem tickModBody_of_idle {s : State.Of p} (h : s.modulationEnabled = false ∨ s.keyed = false) :
    tickModBody s = .next { s with busAvailable := true } := by
  have hidle : (!(s.modulationEnabled && s.keyed)) = true := by rcases h with h | h <;> simp [h]
  rw [tickModBody, if_pos hidle]

/-- A tick that does not end the cycle (R152, R153). -/
theorem tickModBody_of_counting {s : State.Of p} (hen : s.modulationEnabled = true) (hkeyed : s.keyed = true)
    (hphase : s.modPhase.toNat + 1 < p.modCycle) :
    tickModBody s =
      .next { s with busAvailable := decide (s.modPhase.toNat < p.modYield), modPhase := s.modPhase + 1 } := by
  have hwrite : ¬ s.modPhase.toNat = p.modCycle - 1 := by omega
  rw [tickModBody, if_neg (by simp [hen, hkeyed])]
  dsimp only
  rw [if_neg hwrite, andThen, wrapInc_of_ne (Nat.ne_of_lt hphase)]

/-- The tick that ends the cycle is never a yield tick (R153), and what becomes of its sample does not reach the phase. -/
theorem tickModBody_of_cycleEnd (hp : p.Legal) {s : State.Of p} {v : Word} (hen : s.modulationEnabled = true)
    (hkeyed : s.keyed = true) (hphase : s.modPhase.toNat + 1 = p.modCycle)
    (hv : s.tabRead (wrapInc s.modIndex p.modTableLen).toNat = some v) :
    tickModBody s =
      .next { sampleTaken v { s with busAvailable := false } with modPhase := 0 } := by
  have hwrite : s.modPhase.toNat = p.modCycle - 1 := by omega
  have hyield : decide (s.modPhase.toNat < p.modYield) = false := by
    have hshort := hp.yield_short
    exact decide_eq_false (by omega)
  have hsample := modWrite_eq_sampleTaken (s := { s with busAvailable := false }) hv
  have hcount : wrapInc (sampleTaken v { s with busAvailable := false }).modPhase p.modCycle = 0 :=
    wrapInc_of_eq (by rw [sampleTaken_modPhase]; exact hphase)
  rw [tickModBody, if_neg (by simp [hen, hkeyed])]
  dsimp only
  rw [if_pos hwrite, hyield, hsample, andThen, hcount]

theorem exec_tickMod_of_run {r : Resp} {s : State} (hm : s.mode = .run) :
    exec (.tickMod r) s = tickModBody (s.startOp r) := inRun_of_run hm

/-- Settles O28: the body of TICK_MOD on the started operation, idle or before the end of the cycle. -/
theorem tickModIdleAndPhase : Obligations.TickModIdleAndPhase := by
  intro r s hm
  rw [exec_tickMod_of_run hm]
  exact ⟨fun hidle => tickModBody_of_idle hidle, fun hen hkeyed hphase => tickModBody_of_counting hen hkeyed hphase⟩

/-- The fates of the sample in order (R152): the bus mark and the index are set before the gating and stay. -/
theorem sampleTaken_startOp (v : Word) (r : Resp) (s : State.Of p) :
    sampleTaken v { s.startOp r with busAvailable := false } =
      if s.claimedByReader then
        { s.answered r Flag.busy.mask [] with
          busAvailable := false, modIndex := wrapInc s.modIndex p.modTableLen }
      else if r.synOk then
        { (s.synHolds .amp v).answered r 0 (synRecords .amp v) with
          busAvailable := false, modIndex := wrapInc s.modIndex p.modTableLen }
      else
        { s.answered r Flag.commSyn.mask [] with
          busAvailable := false, modIndex := wrapInc s.modIndex p.modTableLen } :=
  gated_startOp (.synTxn .amp v) r { s with busAvailable := false, modIndex := wrapInc s.modIndex p.modTableLen }

/-- The tick that ends the cycle, as an operation: one sample under the gating of a started operation. -/
theorem exec_tickMod_of_cycleEnd {r : Resp} {s : State} {v : Word} (hm : s.mode = .run)
    (hen : s.modulationEnabled = true) (hkeyed : s.keyed = true) (hphase : s.modPhase.toNat + 1 = Config.params.modCycle)
    (hv : s.tabRead (wrapInc s.modIndex Config.params.modTableLen).toNat = some v) :
    exec (.tickMod r) s =
      .next { sampleTaken v { s.startOp r with busAvailable := false } with modPhase := 0 } := by
  rw [exec_tickMod_of_run hm]
  exact tickModBody_of_cycleEnd Config.params_legal hen hkeyed hphase hv

/-- Settles O29: the fates of the sample are those of the common gating. -/
theorem tickModWritesOneSample : Obligations.TickModWritesOneSample := by
  intro r s v hm hen hkeyed hphase hindex hv
  have hk : (wrapInc s.modIndex Config.params.modTableLen).toNat = (s.modIndex.toNat + 1) % 10 :=
    wrapInc_toNat s.modIndex Config.params.modTableLen hindex Config.params_legal.table_width
  rw [← hk] at hv
  refine ⟨wrapInc s.modIndex Config.params.modTableLen, hk, ?_⟩
  rw [exec_tickMod_of_cycleEnd hm hen hkeyed hphase hv, sampleTaken_startOp]
  refine ⟨fun hc => ?_, fun hc ho => ?_, fun hc ho => ?_⟩
  · rw [if_pos hc]
  · rw [if_neg (ne_true_of_eq_false hc), if_neg (ne_true_of_eq_false ho)]
  · rw [if_neg (ne_true_of_eq_false hc), if_pos ho]

/-! ## A run of ticks (R155) -/

/-- The modulation engine runs (R151), with its two counters in range (R47 (e)). -/
structure ModRunning (s : State) : Prop where
  mode : s.mode = .run
  enabled : s.modulationEnabled = true
  keyed : s.keyed = true
  phase : s.modPhase.toNat < Config.params.modCycle
  index : s.modIndex.toNat < Config.params.modTableLen

/-- The running engine is `n` ticks further in `t` than in `s`: the phase counts modulo the cycle and each cycle it completes
moves the index (R155). -/
structure ModAdvanced (n : Nat) (s t : State) : Prop where
  running : ModRunning t
  phase : t.modPhase.toNat = (s.modPhase.toNat + n) % Config.params.modCycle
  index : t.modIndex.toNat =
    (s.modIndex.toNat + (s.modPhase.toNat + n) / Config.params.modCycle) % Config.params.modTableLen
  deferred : t.deferred = s.deferred

theorem modCycle_pos : 0 < Config.params.modCycle := Nat.lt_of_lt_of_le Nat.zero_lt_two Config.params_legal.cycle_two

theorem ModAdvanced.refl {s : State} (hs : ModRunning s) : ModAdvanced 0 s s where
  running := hs
  phase := (Nat.mod_eq_of_lt hs.phase).symm
  index := by rw [Nat.add_zero, Nat.div_eq_of_lt hs.phase, Nat.add_zero, Nat.mod_eq_of_lt hs.index]
  deferred := rfl

/-- The cycles completed in two parts of a run are those of the whole: the second part starts at the remainder. -/
theorem add_div_eq_div_add_mod_add_div (a n : Nat) {c : Nat} (hc : 0 < c) : (a + n) / c = a / c + (a % c + n) / c := by
  calc (a + n) / c = (a % c + n + c * (a / c)) / c := by rw [Nat.add_right_comm, Nat.mod_add_div]
    _ = a / c + (a % c + n) / c := by rw [Nat.add_mul_div_left _ _ hc, Nat.add_comm]

theorem ModAdvanced.trans {m n : Nat} {s t u : State} (h : ModAdvanced m s t) (h' : ModAdvanced n t u) :
    ModAdvanced (m + n) s u where
  running := h'.running
  phase := by rw [h'.phase, h.phase, Nat.mod_add_mod, Nat.add_assoc]
  index := by
    rw [h'.index, h.index, h.phase, Nat.mod_add_mod, ← Nat.add_assoc,
      add_div_eq_div_add_mod_add_div (s.modPhase.toNat + m) n modCycle_pos, Nat.add_assoc]
  deferred := h'.deferred.trans h.deferred

/-- TICK_MOD writes the counters, the bus mark and the synthesizer image (R49), so the engine keeps running and nothing is
deferred. -/
theorem ModAdvanced.of_exec {r : Resp} {s t : State} (hs : ModRunning s) (he : exec (.tickMod r) s = .next t)
    (hphase : t.modPhase.toNat = (s.modPhase.toNat + 1) % Config.params.modCycle)
    (hindex : t.modIndex.toNat =
      (s.modIndex.toNat + (s.modPhase.toNat + 1) / Config.params.modCycle) % Config.params.modTableLen) :
    ModAdvanced 1 s t := by
  have hw : t = writes (.tickMod r) s t := execOf_writes ((exec_eq_execOf _ s).symm.trans he)
  refine ⟨⟨?_, ?_, ?_, ?_, ?_⟩, hphase, hindex, by rw [hw]; rfl⟩
  · rw [hw]; exact hs.mode
  · rw [hw]; exact hs.enabled
  · rw [hw]; exact hs.keyed
  · rw [hphase]; exact Nat.mod_lt _ modCycle_pos
  · rw [hindex]; exact Nat.mod_lt _ Config.params_legal.table_one

/-- A tick of the running engine always answers a next state, one tick further: its index never leaves the table. -/
theorem exec_tickMod_of_modRunning (r : Resp) {s : State} (hs : ModRunning s) :
    ∃ t, exec (.tickMod r) s = .next t ∧ ModAdvanced 1 s t := by
  have hle : s.modPhase.toNat + 1 ≤ Config.params.modCycle := hs.phase
  rcases Nat.lt_or_eq_of_le hle with hlt | heq
  · have he := (exec_tickMod_of_run hs.mode).trans
      (tickModBody_of_counting (s := s.startOp r) hs.enabled hs.keyed hlt)
    refine ⟨_, he, .of_exec hs he ?_ ?_⟩
    · have hcount := wrapInc_toNat s.modPhase _ hs.phase Config.params_legal.cycle_width
      rwa [wrapInc_of_ne (Nat.ne_of_lt hlt)] at hcount
    · rw [Nat.div_eq_of_lt hlt]
      exact (Nat.mod_eq_of_lt hs.index).symm
  · have hcount := wrapInc_toNat s.modIndex _ hs.index Config.params_legal.table_width
    have hk := wrapInc_lt s.modIndex _ hs.index Config.params_legal.table_width
    have he := exec_tickMod_of_cycleEnd (r := r) hs.mode hs.enabled hs.keyed heq (tabRead_isSome s _ hk)
    refine ⟨_, he, .of_exec hs he ?_ ?_⟩
    · rw [heq, Nat.mod_self]
      rfl
    · rw [heq, Nat.div_self modCycle_pos, ← hcount]
      exact congrArg BitVec.toNat (sampleTaken_modIndex _ _)

/-- The engine counts through any run of ticks, whatever the bus and the transactions answer (R155). -/
theorem runOps_tickMod_of_modRunning (rs : List Resp) {s : State} (hs : ModRunning s) :
    ∃ t, runOps (rs.map Instr.tickMod) s = .next t ∧ ModAdvanced rs.length s t := by
  induction rs generalizing s with
  | nil => exact ⟨s, rfl, .refl hs⟩
  | cons r rs ih =>
    obtain ⟨u, hu, htick⟩ := exec_tickMod_of_modRunning r hs
    obtain ⟨t, ht, hrest⟩ := ih htick.running
    refine ⟨t, ?_, ?_⟩
    · rw [List.map_cons, runOps, hu]
      exact ht
    · rw [List.length_cons, Nat.add_comm]
      exact htick.trans hrest

/-- Settles O30: the law for any phase, at phase 0. -/
theorem modulationIndexLaw : Obligations.ModulationIndexLaw := by
  intro rs s hm hen hkeyed hphase hindex
  have hzero : s.modPhase.toNat = 0 := by rw [hphase]; rfl
  have hs : ModRunning s := ⟨hm, hen, hkeyed, by rw [hzero]; exact modCycle_pos, hindex⟩
  obtain ⟨t, ht, hadv⟩ := runOps_tickMod_of_modRunning rs hs
  have hphase' := hadv.phase
  have hindex' := hadv.index
  rw [hzero, Nat.zero_add] at hphase' hindex'
  exact ⟨t, ht, hphase', hindex', hadv.running.keyed, hadv.deferred⟩

end Sys2Proof.Machine

/-! PROOF. The tick of the Morse engine (spec/43_morse.md R166, R170 to R179). One equation per branch of TICK_MORSE and of
its unit step: stopped, restarted, disabled, counting, a fetch, a count-down, a trailing unit. Each clause about an
operation is one of these on a started operation, with the fates of the key primitive it reaches. -/

namespace Sys2Proof.Machine

variable {p : Config.Params}

/-! ## The symbols at load (R175 to R178) -/

/-- The load of a mark of `units` keyed units: DOT and DASH but for the number (R175, R176). -/
def loadMark (units : BitVec 4) (s : State.Of p) : State.Of p :=
  State.Of.keyOn { s with unitsRemaining := units, curIsMark := true }

theorem loadDot_eq_loadMark (s : State.Of p) : loadDot s = loadMark (BitVec.ofNat 4 p.unitsDot) s := rfl

theorem loadDash_eq_loadMark (s : State.Of p) : loadDash s = loadMark (BitVec.ofNat 4 p.unitsDash) s := rfl

/-- The fates of the key-on of a mark in order (R122, R175, R176). -/
theorem loadMark_eq (units : BitVec 4) (s : State.Of p) :
    loadMark units s =
      if s.poweredDown then
        { s with unitsRemaining := units, curIsMark := true, flags := s.flags ||| Flag.invalid.mask }
      else if s.claimedByReader then
        { s with
          unitsRemaining := units, curIsMark := true, deferred := .turnOn, flags := s.flags ||| Flag.deferred.mask }
      else if s.resp.synOk then
        { s.synHolds .key 1 with
          unitsRemaining := units, curIsMark := true, keyed := true, out := s.out ++ synRecords .key 1 }
      else { s with unitsRemaining := units, curIsMark := true, flags := s.flags ||| Flag.commSyn.mask } := by
  unfold loadMark
  obtain ⟨hp, e⟩ | ⟨hp, hc, e⟩ | ⟨hp, hc, ho, e⟩ | ⟨hp, hc, ho, e⟩ :=
    keyOn_cases { s with unitsRemaining := units, curIsMark := true } <;> rw [e] <;> dsimp only at hp
  · rw [if_pos hp]
    rfl
  · rw [if_neg (ne_true_of_eq_false hp), if_pos hc]
    rfl
  · rw [if_neg (ne_true_of_eq_false hp), if_neg (ne_true_of_eq_false hc), if_neg (ne_true_of_eq_false ho)]
    rfl
  · rw [if_neg (ne_true_of_eq_false hp), if_neg (ne_true_of_eq_false hc), if_pos ho, synTxn_eq, List.append_assoc]
    rfl

theorem exec_mark {q : Instr × BitVec 4} (hq : q = (.dot, 1) ∨ q = (.dash, 3)) (s : State) :
    exec q.1 s = .next (loadMark q.2 s) := by obtain rfl | rfl := hq <;> rfl

/-- Settles O31: a space is its two registers, a mark is one load whose fates are those of the key-on. -/
theorem symbolsAtLoad : Obligations.SymbolsAtLoad := by
  intro s
  refine ⟨rfl, rfl, fun q hq => ?_⟩
  rw [exec_mark hq, loadMark_eq]
  refine ⟨fun hp => ?_, fun hp hc => ?_, fun hp hc ho => ?_, fun hp hc ho => ?_⟩
  · rw [if_pos hp]
  · rw [if_neg (ne_true_of_eq_false hp), if_pos hc]
  · rw [if_neg (ne_true_of_eq_false hp), if_neg (ne_true_of_eq_false hc), if_neg (ne_true_of_eq_false ho)]
  · rw [if_neg (ne_true_of_eq_false hp), if_neg (ne_true_of_eq_false hc), if_pos ho]

/-! ## The branches of a unit step (R172 to R174) -/

theorem unitStep_of_fetch {s : State.Of p} {sym : Symbol} (hunits : s.unitsRemaining = 0)
    (hread : s.progRead s.symbolIndex.toNat = some sym) :
    unitStep s = .next (loadSymbol sym { s with symbolIndex := wrapInc s.symbolIndex s.cfgProgLen.toNat }) := by
  rw [unitStep, if_pos hunits, fetchSymbol, hread]

theorem unitStep_of_no_symbol {s : State.Of p} (hunits : s.unitsRemaining = 0)
    (hread : s.progRead s.symbolIndex.toNat = none) : unitStep s = .fault .progReadOutOfRange := by
  rw [unitStep, if_pos hunits, fetchSymbol, hread]

/-- A count-down that ends no mark calls no key primitive. -/
theorem unitStep_of_counting {s : State.Of p} (hunits : s.unitsRemaining ≠ 0)
    (hmark : s.unitsRemaining ≠ 1 ∨ s.curIsMark = false) :
    unitStep s = .next { s with unitsRemaining := s.unitsRemaining - 1 } := by
  have hrest : ¬ (s.unitsRemaining - 1 = 0 ∧ s.curIsMark = true) := by
    rintro ⟨hend, hcur⟩
    obtain hne | hcur' := hmark
    · exact hne (by bv_omega)
    · exact absurd (hcur.symm.trans hcur') (by decide)
  rw [unitStep, if_neg hunits, countDown, if_neg hrest]

/-- The trailing unit of a mark keys off (R174). -/
theorem unitStep_of_trailing {s : State.Of p} (hunits : s.unitsRemaining = 1) (hmark : s.curIsMark = true) :
    unitStep s = .next (State.Of.keyOff { s with unitsRemaining := 0, curIsMark := false }) := by
  rw [unitStep, hunits, if_neg (by decide), countDown, hunits, if_pos ⟨rfl, hmark⟩]
  rfl

/-- What a unit step leaves alone: every field but the cursor, `curIsMark` and those of the key primitives (R172). -/
theorem unitStep_frame {s t : State.Of p} (h : unitStep s = .next t) :
    t = { s with
      symbolIndex := t.symbolIndex, unitsRemaining := t.unitsRemaining, curIsMark := t.curIsMark, keyed := t.keyed,
      deferred := t.deferred, synBuf := t.synBuf, synAct := t.synAct, flags := t.flags, out := t.out } := by
  obtain ⟨-, sym, -, rfl⟩ | ⟨-, -, rfl⟩ | ⟨-, -, rfl⟩ := unitStep_cases h
  · rw [loadSymbol_frame]
  · rfl
  · rw [keyOff_frame]

/-! ## The branches of TICK_MORSE (R170, R171, R179) -/

theorem exec_tickMorse_of_run {r : Resp} {s : State} (hm : s.mode = .run) :
    exec (.tickMorse r) s = tickMorseBody (s.startOp r) := inRun_of_run hm

theorem exec_tickMorse_of_config {r : Resp} {s : State} (hm : s.mode = .config) :
    exec (.tickMorse r) s = .next (s.answered r Flag.locked.mask []) := inRun_of_config (body := tickMorseBody) hm

theorem tickMorseBody_of_stopped {s : State.Of p} (hrun : s.morseRunning = false) : tickMorseBody s = .next s := by
  rw [tickMorseBody, hrun]
  rfl

/-- The tick of a restart is the tick of the restarted engine (R171). -/
theorem tickMorseBody_of_reset {s : State.Of p} (hrun : s.morseRunning = true) (hreset : s.resetFlag = true) :
    tickMorseBody s = tickMorseBody (restartCursor s) := by
  have hrun' : (restartCursor s).morseRunning = true := hrun
  have hreset' : (restartCursor s).resetFlag = false := rfl
  rw [tickMorseBody, tickMorseBody, hrun, hreset, hrun', hreset']
  rfl

theorem tickMorseBody_of_disabled {s : State.Of p} (hrun : s.morseRunning = true) (hreset : s.resetFlag = false)
    (hen : s.cfgMorseEn = false) : tickMorseBody s = .next (if s.keyed then s else s.keyOn) := by
  cases hkeyed : s.keyed <;> simp [tickMorseBody, hrun, hreset, hen, hkeyed]

section
variable {s : State.Of p} (hrun : s.morseRunning = true) (hreset : s.resetFlag = false) (hen : s.cfgMorseEn = true)
include hrun hreset hen

theorem tickMorseBody_of_enabled :
    tickMorseBody s = andThen (if s.rateCount = 0 then unitStep s else .next s) advanceRate := by
  simp [tickMorseBody, hrun, hreset, hen]

theorem tickMorseBody_of_counting (hrate : s.rateCount ≠ 0) : tickMorseBody s = .next (advanceRate s) := by
  rw [tickMorseBody_of_enabled hrun hreset hen, if_neg hrate]
  rfl

theorem tickMorseBody_of_unitStep {u : State.Of p} (hrate : s.rateCount = 0) (hu : unitStep s = .next u) :
    tickMorseBody s = .next (advanceRate u) := by
  rw [tickMorseBody_of_enabled hrun hreset hen, if_pos hrate, hu]
  rfl

end

/-- After a unit step the rate counter begins a unit (R170). -/
theorem advanceRate_of_unitStep {s u : State.Of p} (hrate : s.rateCount = 0) (hu : unitStep s = .next u) :
    advanceRate u = { u with rateCount := if 1 = s.morseUnit.toNat then 0 else 1 } := by
  have hcount : u.rateCount = 0 := by rw [unitStep_frame hu]; exact hrate
  have hunit : u.morseUnit = s.morseUnit := by rw [unitStep_frame hu]
  rw [advanceRate, hcount, hunit]
  rfl

/-- A tick on a unit step, as an operation (R170, R172). -/
theorem exec_tickMorse_of_unitStep {r : Resp} {s u : State} (hm : s.mode = .run) (hrun : s.morseRunning = true)
    (hreset : s.resetFlag = false) (hen : s.cfgMorseEn = true) (hrate : s.rateCount = 0)
    (hu : unitStep (s.startOp r) = .next u) :
    exec (.tickMorse r) s = .next { u with rateCount := if 1 = s.morseUnit.toNat then 0 else 1 } := by
  have hbody : tickMorseBody (s.startOp r) = .next (advanceRate u) :=
    tickMorseBody_of_unitStep (s := s.startOp r) hrun hreset hen hrate hu
  have hadvance := advanceRate_of_unitStep (s := s.startOp r) hrate hu
  rw [exec_tickMorse_of_run hm, hbody, hadvance]
  rfl

/-- Settles O7: the tick is the unit step, the unit step the load of the symbol read, and the load `exec` of it. -/
theorem fetchTickRunsTheSymbol : Obligations.FetchTickRunsTheSymbol := by
  intro r s sym hm hrun hreset hen hrate hunits hindex hsym
  have hread : (s.startOp r).progRead (s.startOp r).symbolIndex.toNat = some sym :=
    (progRead_eq_some (s.startOp r) _ sym).2 ⟨hindex, hsym⟩
  exact ⟨_, exec_symbol sym _,
    exec_tickMorse_of_unitStep hm hrun hreset hen hrate (unitStep_of_fetch (s := s.startOp r) hunits hread)⟩

/-- Settles O32: the stopped engine, and the branch that only counts. -/
theorem tickMorseStoppedOrCounting : Obligations.TickMorseStoppedOrCounting := by
  intro r s hm
  rw [exec_tickMorse_of_run hm]
  exact ⟨fun hrun => tickMorseBody_of_stopped (s := s.startOp r) hrun,
    fun hrun hreset hen hrate => tickMorseBody_of_counting (s := s.startOp r) hrun hreset hen hrate⟩

/-- Settles O33: both sides are the tick of the restarted engine. -/
theorem restartBeginsAFreshWord : Obligations.RestartBeginsAFreshWord := by
  intro r s hm hrun hreset
  have hfresh : exec (.tickMorse r) (restartCursor s) = tickMorseBody (restartCursor (s.startOp r)) :=
    exec_tickMorse_of_run (s := restartCursor s) hm
  rw [exec_tickMorse_of_run hm, tickMorseBody_of_reset (s := s.startOp r) hrun hreset]
  exact hfresh.symm

/-- Settles O34: the branch of the disabled engine, with the fates of the key-on. -/
theorem morseDisabledHoldsTheCarrier : Obligations.MorseDisabledHoldsTheCarrier := by
  intro r s hm hrun hreset hen
  rw [exec_tickMorse_of_run hm, tickMorseBody_of_disabled (s := s.startOp r) hrun hreset hen, startOp_keyed,
    keyOn_startOp, startOp_eq]
  refine ⟨fun hk => ?_, fun hk hp => ?_, fun hk hp hc => ?_, fun hk hp hc ho => ?_, fun hk hp hc ho => ?_⟩
  · rw [if_pos hk]
  · rw [if_neg (ne_true_of_eq_false hk), if_pos hp]
  · rw [if_neg (ne_true_of_eq_false hk), if_neg (ne_true_of_eq_false hp), if_pos hc]
  · rw [if_neg (ne_true_of_eq_false hk), if_neg (ne_true_of_eq_false hp), if_neg (ne_true_of_eq_false hc),
      if_neg (ne_true_of_eq_false ho)]
  · rw [if_neg (ne_true_of_eq_false hk), if_neg (ne_true_of_eq_false hp), if_neg (ne_true_of_eq_false hc), if_pos ho]

/-- A tick on the trailing unit of a mark: its fates are those of the key-off (R123, R174). -/
theorem exec_tickMorse_of_trailing {r : Resp} {s : State} (hm : s.mode = .run) (hrun : s.morseRunning = true)
    (hreset : s.resetFlag = false) (hen : s.cfgMorseEn = true) (hrate : s.rateCount = 0)
    (hunits : s.unitsRemaining = 1) (hmark : s.curIsMark = true) :
    exec (.tickMorse r) s = .next
      { State.Of.keyOff (({ s with unitsRemaining := 0, curIsMark := false } : State).startOp r) with
        rateCount := if 1 = s.morseUnit.toNat then 0 else 1 } :=
  exec_tickMorse_of_unitStep hm hrun hreset hen hrate (unitStep_of_trailing (s := s.startOp r) hunits hmark)

/-- Settles O35: the count-down, or the trailing unit with the fates of its key-off. -/
theorem unitStepCountsDown : Obligations.UnitStepCountsDown := by
  intro r s c hm hrun hreset hen hrate hc
  subst hc
  refine ⟨fun hunits hmark => ?_, fun hunits hmark hclaim => ?_, fun hunits hmark hfree ho => ?_,
    fun hunits hmark hfree ho => ?_⟩
  · exact exec_tickMorse_of_unitStep hm hrun hreset hen hrate (unitStep_of_counting (s := s.startOp r) hunits hmark)
  · rw [exec_tickMorse_of_trailing hm hrun hreset hen hrate hunits hmark, keyOff_startOp, if_pos hclaim]
    rfl
  · rw [exec_tickMorse_of_trailing hm hrun hreset hen hrate hunits hmark, keyOff_startOp,
      if_neg (ne_true_of_eq_false hfree), if_neg (ne_true_of_eq_false ho)]
    rfl
  · rw [exec_tickMorse_of_trailing hm hrun hreset hen hrate hunits hmark, keyOff_startOp,
      if_neg (ne_true_of_eq_false hfree), if_pos ho]
    rfl

/-! ## The bus and the cursor (R183) -/

/-- `s` with everything the bus, the power, the keying and the transactions decide blanked: what is left of it a tick of
the enabled engine moves by itself (R183). -/
def State.Of.engine (s : State.Of p) : State.Of p :=
  { s with
    keyed := false, poweredDown := false, claimedByReader := false, deferred := .none
    synBuf := synImageOf fun _ => 0, synAct := synImageOf fun _ => 0
    resp := ⟨true, true⟩, flags := 0, out := [] }

theorem keyOn_engine (s : State.Of p) : s.keyOn.engine = s.engine := by rw [keyOn_frame]; rfl

theorem keyOff_engine (s : State.Of p) : s.keyOff.engine = s.engine := by rw [keyOff_frame]; rfl

theorem loadMark_engine (units : BitVec 4) (s : State.Of p) :
    (loadMark units s).engine = { s.engine with unitsRemaining := units, curIsMark := true } := keyOn_engine _

theorem loadSymbol_engine (sym : Symbol) (s : State.Of p) :
    (loadSymbol sym s).engine = (loadSymbol sym s.engine).engine := by
  cases sym with
  | dot => exact (loadMark_engine _ s).trans (loadMark_engine _ s.engine).symm
  | dash => exact (loadMark_engine _ s).trans (loadMark_engine _ s.engine).symm
  | lsp => rfl
  | wsp => rfl

/-- A unit step of the engine is that of the blanked engine. -/
theorem unitStep_engine (s : State.Of p) :
    andThen (unitStep s) State.Of.engine = andThen (unitStep s.engine) State.Of.engine := by
  by_cases hunits : s.unitsRemaining = 0
  · rcases hread : s.progRead s.symbolIndex.toNat with _ | sym
    · have hread' : s.engine.progRead s.engine.symbolIndex.toNat = none := hread
      rw [unitStep_of_no_symbol hunits hread, unitStep_of_no_symbol (s := s.engine) hunits hread']
    · have hread' : s.engine.progRead s.engine.symbolIndex.toNat = some sym := hread
      rw [unitStep_of_fetch hunits hread, unitStep_of_fetch (s := s.engine) hunits hread']
      exact congrArg Host.Outcome.next (loadSymbol_engine sym _)
  · by_cases htrail : s.unitsRemaining = 1 ∧ s.curIsMark = true
    · obtain ⟨hone, hmark⟩ := htrail
      rw [unitStep_of_trailing hone hmark, unitStep_of_trailing (s := s.engine) hone hmark]
      exact congrArg Host.Outcome.next (by rw [keyOff_engine, keyOff_engine]; rfl)
    · have hmark : s.unitsRemaining ≠ 1 ∨ s.curIsMark = false := by
        rwa [not_and_or, Bool.not_eq_true] at htrail
      rw [unitStep_of_counting hunits hmark, unitStep_of_counting (s := s.engine) hunits hmark]
      rfl

/-- The rate counter does not look at what is blanked. -/
theorem andThen_advanceRate_engine (o : Host.Outcome (State.Of p) Fault Refusal) :
    andThen (andThen o advanceRate) State.Of.engine = andThen (andThen o State.Of.engine) advanceRate := by
  cases o <;> rfl

/-- Past the restart. -/
theorem tickMorseBody_engine_of_started {s : State.Of p} (hrun : s.morseRunning = true) (hreset : s.resetFlag = false)
    (hen : s.cfgMorseEn = true) :
    andThen (tickMorseBody s) State.Of.engine = andThen (tickMorseBody s.engine) State.Of.engine := by
  rw [tickMorseBody_of_enabled hrun hreset hen, tickMorseBody_of_enabled (s := s.engine) hrun hreset hen,
    andThen_advanceRate_engine, andThen_advanceRate_engine]
  by_cases hrate : s.rateCount = 0
  · rw [if_pos hrate, if_pos (show s.engine.rateCount = 0 from hrate), unitStep_engine]
  · rw [if_neg hrate, if_neg (show ¬ s.engine.rateCount = 0 from hrate)]
    rfl

theorem tickMorseBody_engine {s : State.Of p} (hen : s.cfgMorseEn = true) :
    andThen (tickMorseBody s) State.Of.engine = andThen (tickMorseBody s.engine) State.Of.engine := by
  cases hrun : s.morseRunning with
  | false =>
    rw [tickMorseBody_of_stopped hrun, tickMorseBody_of_stopped (s := s.engine) hrun]
    rfl
  | true =>
    cases hreset : s.resetFlag with
    | false => exact tickMorseBody_engine_of_started hrun hreset hen
    | true =>
      rw [tickMorseBody_of_reset hrun hreset, tickMorseBody_of_reset (s := s.engine) hrun hreset]
      exact tickMorseBody_engine_of_started (s := restartCursor s) hrun rfl hen

/-- The engine after a tick is decided by the engine before it, whatever the tick's own response bits. -/
theorem exec_tickMorse_engine (r : Resp) {s : State} (hen : s.cfgMorseEn = true) :
    andThen (exec (.tickMorse r) s) State.Of.engine =
      andThen (exec (.tickMorse ⟨true, true⟩) s.engine) State.Of.engine := by
  cases hm : s.mode with
  | run =>
    rw [exec_tickMorse_of_run hm, exec_tickMorse_of_run (s := s.engine) hm]
    exact tickMorseBody_engine (s := s.startOp r) hen
  | config =>
    rw [exec_tickMorse_of_config hm, exec_tickMorse_of_config (s := s.engine) hm]
    rfl

/-- Two states with one engine tick to states with one engine (R183). -/
theorem exec_tickMorse_of_engine_eq {r r' : Resp} {s s' t : State} (hen : s.cfgMorseEn = true)
    (he : s'.engine = s.engine) (h : exec (.tickMorse r) s = .next t) :
    ∃ t', exec (.tickMorse r') s' = .next t' ∧ t'.engine = t.engine := by
  have hen' : s'.cfgMorseEn = true := (congrArg State.Of.cfgMorseEn he :).trans hen
  apply andThen_next.1
  rw [exec_tickMorse_engine r' hen', he, ← exec_tickMorse_engine r hen, h]
  rfl

/-- Settles O37: the two states have one engine before the tick, so that they have one after it. -/
theorem cursorIgnoresTheBus : Obligations.CursorIgnoresTheBus := by
  intro r r' s t claimed keyed down d hen h
  obtain ⟨t', ht', he⟩ := exec_tickMorse_of_engine_eq (r' := r')
    (s' := { s with claimedByReader := claimed, keyed := keyed, poweredDown := down, deferred := d }) hen rfl h
  exact ⟨t', ht', (congrArg State.Of.symbolIndex he :), (congrArg State.Of.unitsRemaining he :),
    (congrArg State.Of.rateCount he :), (congrArg State.Of.curIsMark he :)⟩

end Sys2Proof.Machine

/-! PROOF. The timeline (spec/43_morse.md R166, R182). After a unit step the engine is in unit `j` of symbol number `k`, and
that says what its registers hold; the next unit step is in unit `j + 1`, or in unit 0 of symbol number `k + 1`. Ticks
between unit steps count the rate only, so the unit step in progress at tick `n` is number `n / morseUnit`. -/

namespace Sys2Proof.Machine

variable {p : Config.Params}

/-! ## The units of a symbol (R166) -/

/-- The trailing unit of a mark is silent. -/
theorem totalUnits_of_mark (hp : p.Legal) {sym : Symbol} (h : 0 < keyedUnits p sym) :
    totalUnits p sym = keyedUnits p sym + 1 := by
  cases sym with
  | dot => exact congrArg (p.unitsDot + ·) hp.trail_one
  | dash => exact congrArg (p.unitsDash + ·) hp.trail_one
  | lsp => exact absurd h (Nat.lt_irrefl 0)
  | wsp => exact absurd h (Nat.lt_irrefl 0)

theorem keyedUnits_lt_totalUnits (hp : p.Legal) (sym : Symbol) : keyedUnits p sym < totalUnits p sym := by
  rcases Nat.eq_zero_or_pos (keyedUnits p sym) with h0 | hpos
  · rw [h0]
    cases sym with
    | dot => exact Nat.lt_of_lt_of_le hp.dot_one (Nat.le_add_right _ _)
    | dash => exact Nat.lt_of_lt_of_le hp.dash_one (Nat.le_add_right _ _)
    | lsp => exact hp.lsp_one
    | wsp => exact hp.wsp_one
  · rw [totalUnits_of_mark hp hpos]
    exact Nat.lt_succ_self _

/-! ## What a symbol loads (R175 to R178) -/

theorem loadMark_unitsRemaining (units : BitVec 4) (s : State.Of p) : (loadMark units s).unitsRemaining = units := by
  rw [loadMark, keyOn_frame]

theorem loadMark_curIsMark (units : BitVec 4) (s : State.Of p) : (loadMark units s).curIsMark = true := by
  rw [loadMark, keyOn_frame]

/-- A symbol loads its units but the one that its load is. -/
theorem loadSymbol_unitsRemaining (hp : p.Legal) (sym : Symbol) (s : State.Of p) :
    (loadSymbol sym s).unitsRemaining.toNat + 1 = totalUnits p sym := by
  have hwidth := hp.units_width
  have hfit (n : Nat) (hn : n < 2 ^ 4) : (BitVec.ofNat 4 n).toNat = n := by
    rw [BitVec.toNat_ofNat, Nat.mod_eq_of_lt hn]
  have htrail := hp.trail_one
  cases sym with
  | dot =>
    rw [loadSymbol, loadDot_eq_loadMark, loadMark_unitsRemaining, hfit _ (by omega), totalUnits, htrail]
  | dash =>
    rw [loadSymbol, loadDash_eq_loadMark, loadMark_unitsRemaining, hfit _ (by omega), totalUnits, htrail]
  | lsp => exact (congrArg (· + 1) (hfit _ (by omega))).trans (Nat.sub_add_cancel hp.lsp_one)
  | wsp => exact (congrArg (· + 1) (hfit _ (by omega))).trans (Nat.sub_add_cancel hp.wsp_one)

theorem loadSymbol_curIsMark (hp : p.Legal) (sym : Symbol) (s : State.Of p) :
    (loadSymbol sym s).curIsMark = decide (0 < keyedUnits p sym) := by
  cases sym with
  | dot => exact (loadMark_curIsMark _ s).trans (decide_eq_true hp.dot_one).symm
  | dash => exact (loadMark_curIsMark _ s).trans (decide_eq_true hp.dash_one).symm
  | lsp => rfl
  | wsp => rfl

/-- The carrier may be keyed: the bus is free, the power up and the transaction answered (R122). -/
structure State.Of.Keyable (s : State.Of p) : Prop where
  powered : s.poweredDown = false
  free : s.claimedByReader = false
  answered : s.resp.synOk = true

theorem loadMark_keyed {s : State.Of p} (hs : s.Keyable) (units : BitVec 4) : (loadMark units s).keyed = true := by
  rw [loadMark_eq, if_neg (ne_true_of_eq_false hs.powered), if_neg (ne_true_of_eq_false hs.free), if_pos hs.answered]

/-- A mark keys on, a space leaves the carrier as it is. -/
theorem loadSymbol_keyed (hp : p.Legal) {s : State.Of p} (hs : s.Keyable) (sym : Symbol) :
    (loadSymbol sym s).keyed = (s.keyed || decide (0 < keyedUnits p sym)) := by
  cases sym with
  | dot =>
    have hmark : 0 < keyedUnits p .dot := hp.dot_one
    rw [decide_eq_true hmark, Bool.or_true]
    exact loadMark_keyed hs _
  | dash =>
    have hmark : 0 < keyedUnits p .dash := hp.dash_one
    rw [decide_eq_true hmark, Bool.or_true]
    exact loadMark_keyed hs _
  | lsp => exact (Bool.or_false _).symm
  | wsp => exact (Bool.or_false _).symm

theorem keyOff_keyed_of_done {s : State.Of p} (hc : s.claimedByReader = false) (ho : s.resp.synOk = true) :
    s.keyOff.keyed = false := by
  obtain ⟨hc', -⟩ | ⟨-, ho', -⟩ | ⟨-, -, e⟩ := keyOff_cases s
  · exact absurd (hc.symm.trans hc') (by decide)
  · exact absurd (ho.symm.trans ho') (by decide)
  · rw [e]

/-! ## The unit steps of a transmission -/

/-- The engine runs an enabled program that fits the ROM, with nothing in its way (R182). -/
structure State.Of.Transmits (s : State.Of p) : Prop where
  mode : s.mode = .run
  running : s.morseRunning = true
  enabled : s.cfgMorseEn = true
  powered : s.poweredDown = false
  free : s.claimedByReader = false
  len_pos : 1 ≤ s.cfgProgLen.toNat
  len_le : s.cfgProgLen.toNat ≤ p.progMax
  unit_pos : 1 ≤ s.morseUnit.toNat

/-- `t` is `s` after some ticks: only what the ticks write differs (R49), and no restart is due. -/
structure Ticked (s t : State.Of p) : Prop where
  writes : Writes (.tickMorse ⟨true, true⟩) s t
  started : t.resetFlag = false

theorem Ticked.trans {s t u : State.Of p} (h : Ticked s t) (hw : Writes (.tickMorse ⟨true, true⟩) t u)
    (hr : u.resetFlag = t.resetFlag) : Ticked s u := ⟨h.writes.trans hw, hr.trans h.started⟩

theorem Ticked.cfgProgLen_eq {s t : State.Of p} (h : Ticked s t) : t.cfgProgLen = s.cfgProgLen := by rw [h.writes]; rfl

theorem Ticked.prog_eq {s t : State.Of p} (h : Ticked s t) : t.prog = s.prog := by rw [h.writes]; rfl

theorem Ticked.morseUnit_eq {s t : State.Of p} (h : Ticked s t) : t.morseUnit = s.morseUnit := by rw [h.writes]; rfl

/-- The ticks take none of the conditions away. -/
theorem Ticked.transmits {s t : State.Of p} (h : Ticked s t) (hs : s.Transmits) : t.Transmits := by
  obtain ⟨hm, hrun, hen, hp, hc, h1, h2, h3⟩ := hs
  rw [h.writes]
  exact ⟨hm, hrun, hen, hp, hc, h1, h2, h3⟩

theorem Ticked.unitStep {s t u : State.Of p} (h : Ticked s t) (hu : unitStep t = .next u) : Ticked s u :=
  h.trans (unitStep_writes _ hu) (by rw [unitStep_frame hu])

/-- Symbol number `k` is where the program is read round and round (R182). -/
theorem State.Of.Transmits.prog_symbolNumber {s : State.Of p} (hs : s.Transmits) (k : Nat) :
    s.prog[k % s.cfgProgLen.toNat]? = some (s.symbolNumber k) := by
  have hlt : k % s.cfgProgLen.toNat < p.progMax := Nat.lt_of_lt_of_le (Nat.mod_lt _ hs.len_pos) hs.len_le
  rw [State.Of.symbolNumber, Vector.getElem?_eq_getElem hlt]
  rfl

/-- The registers of the engine `t` in unit `j` of symbol number `k` of the program of `s`: the cursor past the symbol, the
units still to come, and the carrier keyed exactly in the keyed units of a mark (R166, R172). -/
structure InUnit (s : State.Of p) (k j : Nat) (t : State.Of p) : Prop where
  index : t.symbolIndex.toNat = (k + 1) % s.cfgProgLen.toNat
  units : t.unitsRemaining.toNat + (j + 1) = totalUnits p (s.symbolNumber k)
  mark : t.curIsMark = decide (j < keyedUnits p (s.symbolNumber k))
  keyed : t.keyed = decide (j < keyedUnits p (s.symbolNumber k))

/-- A fetch at the end of a symbol begins the next, unless a carrier keyed before would go on into a space. -/
theorem unitStep_begins_symbol (hp : p.Legal) {s t : State.Of p} (hs : s.Transmits) (ht : Ticked s t)
    (ho : t.resp.synOk = true) {k : Nat} (hunits : t.unitsRemaining = 0)
    (hindex : t.symbolIndex.toNat = k % s.cfgProgLen.toNat)
    (hkeyed : t.keyed = false ∨ 0 < keyedUnits p (s.symbolNumber k)) :
    ∃ u, unitStep t = .next u ∧ InUnit s k 0 u := by
  have hread : t.progRead t.symbolIndex.toNat = some (s.symbolNumber k) := by
    rw [progRead_eq_some, ht.cfgProgLen_eq, ht.prog_eq, hindex]
    exact ⟨Nat.mod_lt _ hs.len_pos, hs.prog_symbolNumber k⟩
  have hkeyable : State.Of.Keyable { t with symbolIndex := wrapInc t.symbolIndex t.cfgProgLen.toNat } :=
    ⟨(ht.transmits hs).powered, (ht.transmits hs).free, ho⟩
  refine ⟨_, unitStep_of_fetch hunits hread, ?_, loadSymbol_unitsRemaining hp _ _, loadSymbol_curIsMark hp _ _, ?_⟩
  · have hlt : t.symbolIndex.toNat < s.cfgProgLen.toNat := hindex ▸ Nat.mod_lt _ hs.len_pos
    have hfit : s.cfgProgLen.toNat ≤ 2 ^ 8 := Nat.le_trans hs.len_le hp.prog_range.2
    rw [loadSymbol_frame, ht.cfgProgLen_eq, wrapInc_toNat t.symbolIndex _ hlt hfit, hindex, Nat.mod_add_mod]
  · rw [loadSymbol_keyed hp hkeyable]
    rcases hkeyed with hoff | hmark
    · exact congrArg (· || decide _) hoff
    · rw [decide_eq_true hmark, Bool.or_true]

/-- The trailing unit of a mark is the unit after its keyed units, and keys off (R174). -/
theorem unitStep_ends_mark (hp : p.Legal) {s t : State.Of p} (hs : s.Transmits) (ht : Ticked s t)
    (ho : t.resp.synOk = true) {k j : Nat} (h : InUnit s k j t) (hunits : t.unitsRemaining = 1)
    (hmark : t.curIsMark = true) : ∃ u, unitStep t = .next u ∧ InUnit s k (j + 1) u := by
  have hone : t.unitsRemaining.toNat = 1 := congrArg BitVec.toNat hunits
  have hin : j < keyedUnits p (s.symbolNumber k) := of_decide_eq_true (h.mark.symm.trans hmark)
  have htotal := totalUnits_of_mark hp (Nat.zero_lt_of_lt hin)
  have hcount := h.units
  have hend : ¬ j + 1 < keyedUnits p (s.symbolNumber k) := by omega
  refine ⟨_, unitStep_of_trailing hunits hmark, ?_, ?_, ?_, ?_⟩
  · rw [keyOff_frame]
    exact h.index
  · rw [keyOff_frame]
    show 0 + (j + 1 + 1) = _
    omega
  · rw [keyOff_frame, decide_eq_false hend]
  · rw [decide_eq_false hend]
    exact keyOff_keyed_of_done (s := { t with unitsRemaining := 0, curIsMark := false }) (ht.transmits hs).free ho

/-- Any other count-down stays among the keyed units of a mark or outside them. -/
theorem unitStep_counts_down (hp : p.Legal) {s t : State.Of p} {k j : Nat} (h : InUnit s k j t)
    (hunits : t.unitsRemaining ≠ 0) (hmark : t.unitsRemaining ≠ 1 ∨ t.curIsMark = false) :
    ∃ u, unitStep t = .next u ∧ InUnit s k (j + 1) u := by
  have hcount := h.units
  have hdown : (t.unitsRemaining - 1).toNat + 1 = t.unitsRemaining.toNat := by bv_omega
  have hsame : decide (j < keyedUnits p (s.symbolNumber k)) = decide (j + 1 < keyedUnits p (s.symbolNumber k)) := by
    rw [decide_eq_decide]
    refine ⟨fun hin => ?_, Nat.lt_of_succ_lt⟩
    have htotal := totalUnits_of_mark hp (Nat.zero_lt_of_lt hin)
    rcases hmark with hne | hspace
    · have htwo : t.unitsRemaining.toNat ≠ 1 := by bv_omega
      omega
    · exact absurd hin (of_decide_eq_false (h.mark.symm.trans hspace))
  refine ⟨_, unitStep_of_counting hunits hmark, h.index, ?_, h.mark.trans hsame, h.keyed.trans hsame⟩
  show (t.unitsRemaining - 1).toNat + (j + 1 + 1) = _
  omega

/-- The engine is in unit step number `m` of the program of `s` (R182). -/
def AtUnitStep (s : State.Of p) (m : Nat) (t : State.Of p) : Prop :=
  ∃ k j, m = s.fetchUnit k + j ∧ InUnit s k j t

/-- Each unit step is the next of the program: the fetch of the next symbol, or a count-down in this one. -/
theorem unitStep_next (hp : p.Legal) {s t : State.Of p} (hs : s.Transmits) (ht : Ticked s t)
    (ho : t.resp.synOk = true) {m : Nat} (h : AtUnitStep s m t) :
    ∃ u, unitStep t = .next u ∧ AtUnitStep s (m + 1) u := by
  obtain ⟨k, j, rfl, hin⟩ := h
  by_cases hunits : t.unitsRemaining = 0
  · have hzero : t.unitsRemaining.toNat = 0 := congrArg BitVec.toNat hunits
    have htotal := hin.units
    have hlt := keyedUnits_lt_totalUnits hp (s.symbolNumber k)
    have hkeyed : t.keyed = false := hin.keyed.trans (decide_eq_false (by omega))
    obtain ⟨u, hu, hnext⟩ := unitStep_begins_symbol hp hs ht ho hunits hin.index (.inl hkeyed)
    refine ⟨u, hu, k + 1, 0, ?_, hnext⟩
    rw [State.Of.fetchUnit]
    omega
  · have hdown : ∃ u, unitStep t = .next u ∧ InUnit s k (j + 1) u := by
      by_cases htrail : t.unitsRemaining = 1 ∧ t.curIsMark = true
      · exact unitStep_ends_mark hp hs ht ho hin htrail.1 htrail.2
      · exact unitStep_counts_down hp hin hunits (by rwa [not_and_or, Bool.not_eq_true] at htrail)
    obtain ⟨u, hu, hnext⟩ := hdown
    exact ⟨u, hu, k, j + 1, rfl, hnext⟩

/-! ## The carrier at a unit step -/

theorem State.Of.fetchUnit_mono (s : State.Of p) : Monotone s.fetchUnit :=
  monotone_nat_of_le_succ fun _ => Nat.le_add_right _ _

/-- The symbols do not overlap: only the one a unit step is in can have it among its keyed units. -/
theorem AtUnitStep.keyed_iff (hp : p.Legal) {s t : State.Of p} {m : Nat} (h : AtUnitStep s m t) :
    t.keyed = true ↔ ∃ k, s.fetchUnit k ≤ m ∧ m < s.fetchUnit k + keyedUnits p (s.symbolNumber k) := by
  obtain ⟨k, j, rfl, hin⟩ := h
  rw [hin.keyed, decide_eq_true_iff]
  constructor
  · exact fun hj => ⟨k, by omega, by omega⟩
  · rintro ⟨k', hle, hlt⟩
    have htotal := hin.units
    have hlt' := keyedUnits_lt_totalUnits hp (s.symbolNumber k')
    have hend : s.fetchUnit (k + 1) = s.fetchUnit k + totalUnits p (s.symbolNumber k) := rfl
    have hend' : s.fetchUnit (k' + 1) = s.fetchUnit k' + totalUnits p (s.symbolNumber k') := rfl
    rcases Nat.lt_trichotomy k k' with hk | rfl | hk
    · have hmono : s.fetchUnit (k + 1) ≤ s.fetchUnit k' := s.fetchUnit_mono hk
      omega
    · omega
    · have hmono : s.fetchUnit (k' + 1) ≤ s.fetchUnit k := s.fetchUnit_mono hk
      omega

/-! ## The ticks of a transmission (R170, R182) -/

/-- The engine after tick number `n`: in unit step number `n / morseUnit`, with the rate counter as far into its unit. -/
structure AfterTick (s : State.Of p) (n : Nat) (t : State.Of p) : Prop where
  ticked : Ticked s t
  rate : t.rateCount.toNat = (n + 1) % s.morseUnit.toNat
  position : AtUnitStep s (n / s.morseUnit.toNat) t

theorem advanceRate_rateCount {s t : State.Of p} (hs : s.Transmits) (ht : Ticked s t) {n : Nat}
    (hrate : t.rateCount.toNat = n % s.morseUnit.toNat) :
    (advanceRate t).rateCount.toNat = (n + 1) % s.morseUnit.toNat := by
  have hlt : t.rateCount.toNat < s.morseUnit.toNat := hrate ▸ Nat.mod_lt _ hs.unit_pos
  rw [advanceRate, ht.morseUnit_eq, wrapInc_toNat t.rateCount _ hlt (Nat.le_of_lt s.morseUnit.isLt), hrate,
    Nat.mod_add_mod]

/-- Only the four registers say where the engine is. -/
theorem AtUnitStep.of_registers {s t u : State.Of p} {m : Nat} (h : AtUnitStep s m t)
    (hindex : u.symbolIndex = t.symbolIndex) (hunits : u.unitsRemaining = t.unitsRemaining)
    (hmark : u.curIsMark = t.curIsMark) (hkeyed : u.keyed = t.keyed) : AtUnitStep s m u := by
  obtain ⟨k, j, hm, hin⟩ := h
  refine ⟨k, j, hm, ?_, ?_, hmark.trans hin.mark, hkeyed.trans hin.keyed⟩
  · rw [hindex, hin.index]
  · rw [hunits, hin.units]

/-- A tick ends with the advance of the rate counter. -/
theorem AfterTick.of_advanceRate {s t : State.Of p} (hs : s.Transmits) (ht : Ticked s t) {n : Nat}
    (hrate : t.rateCount.toNat = n % s.morseUnit.toNat) (hat : AtUnitStep s (n / s.morseUnit.toNat) t) :
    AfterTick s n (advanceRate t) where
  ticked := ht.trans rfl rfl
  rate := advanceRate_rateCount hs ht hrate
  position := hat.of_registers rfl rfl rfl rfl

/-- The tick of a restart fetches symbol number 0 (R171). -/
theorem tickMorseBody_first (hp : p.Legal) {s : State.Of p} (hs : s.Transmits) (hreset : s.resetFlag = true)
    (hkeyed : s.keyed = false ∨ 0 < keyedUnits p (s.symbolNumber 0)) :
    ∃ t, tickMorseBody (s.startOp ⟨true, true⟩) = .next t ∧ AfterTick s 0 t := by
  have ht : Ticked s (restartCursor (s.startOp ⟨true, true⟩)) := ⟨rfl, rfl⟩
  obtain ⟨u, hu, hin⟩ := unitStep_begins_symbol hp hs ht rfl rfl (Nat.zero_mod _).symm hkeyed
  have hrate : u.rateCount.toNat = 0 % s.morseUnit.toNat := by
    rw [unitStep_frame hu, Nat.zero_mod]
    rfl
  have hat : AtUnitStep s (0 / s.morseUnit.toNat) u := ⟨0, 0, Nat.zero_div _, hin⟩
  refine ⟨advanceRate u, ?_, .of_advanceRate hs (ht.unitStep hu) hrate hat⟩
  rw [tickMorseBody_of_reset (s := s.startOp ⟨true, true⟩) hs.running hreset]
  exact tickMorseBody_of_unitStep (s := restartCursor (s.startOp ⟨true, true⟩)) hs.running rfl hs.enabled rfl hu

/-- A later tick counts the rate, and makes the next unit step where the counter has come round. -/
theorem tickMorseBody_next (hp : p.Legal) {s t : State.Of p} (hs : s.Transmits) {n : Nat} (h : AfterTick s n t) :
    ∃ u, tickMorseBody (t.startOp ⟨true, true⟩) = .next u ∧ AfterTick s (n + 1) u := by
  have ht : Ticked s (t.startOp ⟨true, true⟩) := h.ticked.trans rfl rfl
  have hat : AtUnitStep s (n / s.morseUnit.toNat) (t.startOp ⟨true, true⟩) := h.position.of_registers rfl rfl rfl rfl
  have htr := ht.transmits hs
  by_cases hrate : t.rateCount = 0
  · have hdvd : s.morseUnit.toNat ∣ n + 1 := by
      apply Nat.dvd_of_mod_eq_zero
      rw [← h.rate, hrate]
      rfl
    obtain ⟨u, hu, hnext⟩ := unitStep_next hp hs ht rfl hat
    rw [← Nat.succ_div_of_dvd hdvd] at hnext
    have hcount : u.rateCount.toNat = (n + 1) % s.morseUnit.toNat := by
      rw [unitStep_frame hu]
      exact h.rate
    exact ⟨_, tickMorseBody_of_unitStep htr.running ht.started htr.enabled hrate hu,
      .of_advanceRate hs (ht.unitStep hu) hcount hnext⟩
  · have hndvd : ¬ s.morseUnit.toNat ∣ n + 1 := fun hdvd => hrate (by
      apply BitVec.eq_of_toNat_eq
      rw [h.rate, Nat.mod_eq_zero_of_dvd hdvd]
      rfl)
    rw [← Nat.succ_div_of_not_dvd hndvd] at hat
    exact ⟨_, tickMorseBody_of_counting htr.running ht.started htr.enabled hrate, .of_advanceRate hs ht h.rate hat⟩

/-! ## The run -/

theorem runTimes_succ {i : Instr} {s t : State} (h : exec i s = .next t) (n : Nat) :
    runTimes (n + 1) i s = runTimes n i t := by
  rw [runTimes, List.replicate_succ, runOps, h]
  rfl

/-- What every operation of a run carries on by one, the run carries on by its length. -/
theorem runTimes_of_step {P : Nat → State → Prop} {i : Instr}
    (hstep : ∀ m s, P m s → ∃ t, exec i s = .next t ∧ P (m + 1) t) (n : Nat) {m : Nat} {s : State} (h : P m s) :
    ∃ t, runTimes n i s = .next t ∧ P (m + n) t := by
  induction n generalizing m s with
  | zero => exact ⟨s, rfl, h⟩
  | succ n ih =>
    obtain ⟨u, hu, hnext⟩ := hstep m s h
    obtain ⟨t, ht, hend⟩ := ih hnext
    refine ⟨t, (runTimes_succ hu n).trans ht, ?_⟩
    rwa [Nat.add_assoc, Nat.add_comm 1 n] at hend

/-- Settles O38: the restart tick is tick number 0, each tick carries the position on, and the position says what `keyed`
is. -/
theorem timelineOfAProgram : Obligations.TimelineOfAProgram := by
  intro n s hm hrun hreset hen hfree hpow hlen hmax hunit hkeyed
  have hs : s.Transmits := ⟨hm, hrun, hen, hpow, hfree, hlen, hmax, hunit⟩
  obtain ⟨t₀, ht₀, hfirst⟩ := tickMorseBody_first Config.params_legal hs hreset hkeyed
  have hstep (m : Nat) (t : State) (h : AfterTick s m t) :
      ∃ u, exec (.tickMorse ⟨true, true⟩) t = .next u ∧ AfterTick s (m + 1) u := by
    rw [exec_tickMorse_of_run (h.ticked.transmits hs).mode]
    exact tickMorseBody_next Config.params_legal hs h
  obtain ⟨t, ht, hafter⟩ := runTimes_of_step hstep n hfirst
  rw [Nat.zero_add] at hafter
  exact ⟨t, (runTimes_succ ((exec_tickMorse_of_run hm).trans ht₀) n).trans ht,
    hafter.position.keyed_iff Config.params_legal⟩

end Sys2Proof.Machine

/-! PROOF. The rate (spec/43_morse.md R167 to R169). From a rate to the unit and back is `c / (c / wpm)`, which is not below
the rate, keeps the order and the unit, and so is the least of its own fixed points from the rate on. -/

namespace Sys2Proof.Machine

/-- The rate that comes back from the unit of a rate, by two integer divisions (R167 to R169). -/
def rateBack (c wpm : Nat) : Nat := c / (c / wpm)

theorem le_rateBack {c wpm : Nat} (hpos : 0 < wpm) (hle : wpm ≤ c) : wpm ≤ rateBack c wpm :=
  (Nat.le_div_iff_mul_le (Nat.div_pos hle hpos)).2 (Nat.mul_div_le c wpm)

theorem rateBack_le_rateBack {c v w : Nat} (hpos : 0 < v) (hvw : v ≤ w) (hle : w ≤ c) : rateBack c v ≤ rateBack c w :=
  Nat.div_le_div_left (Nat.div_le_div_left hvw hpos) (Nat.div_pos hle (Nat.lt_of_lt_of_le hpos hvw))

/-- The unit of the rate that comes back is the unit it came from. -/
theorem div_rateBack {c wpm : Nat} (hpos : 0 < wpm) (hle : wpm ≤ c) : c / rateBack c wpm = c / wpm := by
  have hback := le_rateBack hpos hle
  have hbackPos : 0 < rateBack c wpm := Nat.lt_of_lt_of_le hpos hback
  apply Nat.le_antisymm (Nat.div_le_div_left hback hpos)
  exact (Nat.le_div_iff_mul_le hbackPos).2 (Nat.mul_div_le c (c / wpm))

/-- What comes back comes back as itself. -/
theorem rateBack_rateBack {c wpm : Nat} (hpos : 0 < wpm) (hle : wpm ≤ c) :
    rateBack c (rateBack c wpm) = rateBack c wpm := congrArg (c / ·) (div_rateBack hpos hle)

/-- The two conversions have their values where neither the rate nor its unit is 0 (R167, R168). -/
theorem convert_rateBack (p : Config.Params) {wpm : Nat} (hpos : 0 < wpm) (hle : wpm ≤ p.wpmConst) :
    convertToUnit p wpm = some (p.wpmConst / wpm) ∧
      convertToWpm p (p.wpmConst / wpm) = some (rateBack p.wpmConst wpm) :=
  ⟨convertToUnit_eq_some.2 ⟨Nat.ne_of_gt hpos, rfl⟩,
    convertToWpm_eq_some.2 ⟨Nat.ne_of_gt (Nat.div_pos hle hpos), rfl⟩⟩

/-- The 23 rates of R169. -/
def listedRates : List Nat :=
  [5, 6, 7, 8, 9, 10, 11, 12, 13, 14, 15, 16, 17, 18, 20, 21, 24, 26, 30, 34, 40, 48, 60]

/-- The listed rates are those in range that come back as themselves (R169). -/
theorem mem_listedRates_iff : ∀ wpm : Nat, wpm < 61 → (wpm ∈ listedRates ↔ 5 ≤ wpm ∧ rateBack 240 wpm = wpm) := by
  decide

/-- With the defaults the rate that comes back is the least listed rate from the rate on: it is a fixed point itself, and
a fixed point not below the rate is not below it either. -/
theorem rateBack_least_listed {wpm : Nat} (hmin : 5 ≤ wpm) (hmax : wpm ≤ 60) :
    (rateBack 240 wpm = wpm ↔ wpm ∈ listedRates) ∧ rateBack 240 wpm ∈ listedRates ∧
      ∀ r ∈ listedRates, wpm ≤ r → rateBack 240 wpm ≤ r := by
  have hpos : 0 < wpm := by omega
  have hge : wpm ≤ rateBack 240 wpm := le_rateBack hpos (by omega)
  have hle : rateBack 240 wpm ≤ 60 := rateBack_le_rateBack (w := 60) hpos hmax (by decide)
  refine ⟨?_, ?_, fun r hr hwr => ?_⟩
  · rw [mem_listedRates_iff wpm (by omega)]
    exact (and_iff_right hmin).symm
  · exact (mem_listedRates_iff _ (by omega)).2 ⟨by omega, rateBack_rateBack hpos (by omega)⟩
  · have hrmax : r ≤ 60 := (by decide : ∀ r ∈ listedRates, r ≤ 60) r hr
    obtain ⟨-, hfix⟩ := (mem_listedRates_iff r (by omega)).1 hr
    calc rateBack 240 wpm ≤ rateBack 240 r := rateBack_le_rateBack hpos hwr (by omega)
      _ = r := hfix

/-- Settles O48: the laws of `rateBack`, and with the defaults its fixed points. -/
theorem rateRoundTrip : Obligations.RateRoundTrip := by
  constructor
  · intro p hp wpm hmin hmax
    have hpos : 0 < wpm := Nat.lt_of_lt_of_le hp.wpm_one hmin
    have hle : wpm ≤ p.wpmConst := Nat.le_trans hmax hp.wpm_const
    have hback := le_rateBack hpos hle
    obtain ⟨hunit, hwpm⟩ := convert_rateBack p hpos hle
    refine ⟨_, _, hunit, hwpm, ?_, hback, eq_comm⟩
    exact convertToUnit_eq_some.2 ⟨by omega, div_rateBack hpos hle⟩
  · intro wpm hmin hmax
    have hpos : 0 < wpm := by omega
    have hle : wpm ≤ 240 := by omega
    obtain ⟨hunit, hwpm⟩ := convert_rateBack Config.params hpos hle
    exact ⟨_, _, hunit, hwpm, rateBack_least_listed hmin hmax⟩

end Sys2Proof.Machine

/-! PROOF. The order of DateTimes and the minutes of the hour (spec/00_scope.md R16, spec/44_scheduler.md R201, R208 to
R210). The payload without the weekday is a number in mixed radix, whose order is that of its first differing digit; an
on-minute is a congruence modulo `foxMax`, which the end of the hour does not disturb because `foxMax` divides 60. -/

namespace Sys2Proof

/-! ## The order of DateTimes -/

/-- A DateTime as a number: its payload with the weekday left out (R16). -/
def DateTime.number (d : DateTime) : Nat := ({ d with weekday := 0 } : DateTime).payload

/-- The digits of the number, the second the lowest. -/
theorem DateTime.number_eq (d : DateTime) :
    d.number = d.second.toNat + d.minute.toNat * 2 ^ 6 + d.hour.toNat * 2 ^ 12 + d.date.toNat * 2 ^ 17
      + d.month.toNat * 2 ^ 22 + d.year.toNat * 2 ^ 26 := by
  simp [DateTime.number, DateTime.payload]

/-- Each digit below the year fits its place. -/
theorem DateTime.digits_lt (d : DateTime) :
    d.second.toNat < 2 ^ 6 ∧ d.minute.toNat < 2 ^ 6 ∧ d.hour.toNat < 2 ^ 5 ∧ d.date.toNat < 2 ^ 5 ∧
      d.month.toNat < 2 ^ 4 :=
  ⟨d.second.isLt, d.minute.isLt, d.hour.isLt, d.date.isLt, d.month.isLt⟩

/-- The order is decided by the first digit that differs, since those below it fit their places (R16). -/
theorem DateTime.lexLt_iff_number (a b : DateTime) : a.lexLt b = true ↔ a.number < b.number := by
  obtain ⟨hsec, hmin, hhour, hdate, hmonth⟩ := a.digits_lt
  obtain ⟨hsec', hmin', hhour', hdate', hmonth'⟩ := b.digits_lt
  have hend : lexLess [] [] = false := rfl
  simp only [DateTime.lexLt, DateTime.key, lexLess_cons, hend, Bool.false_eq_true, and_false, or_false,
    DateTime.number_eq]
  omega

theorem DateTime.lexEq_iff_number (a b : DateTime) : a.lexEq b = true ↔ a.number = b.number := by
  obtain ⟨hsec, hmin, hhour, hdate, hmonth⟩ := a.digits_lt
  obtain ⟨hsec', hmin', hhour', hdate', hmonth'⟩ := b.digits_lt
  simp only [DateTime.lexEq, DateTime.key, decide_eq_true_eq, List.cons.injEq, and_true, DateTime.number_eq]
  omega

theorem DateTime.lexLe_iff_number (a b : DateTime) : a.lexLe b = true ↔ a.number ≤ b.number := by
  rw [DateTime.lexLe, Bool.or_eq_true, DateTime.lexLt_iff_number, DateTime.lexEq_iff_number, Nat.le_iff_lt_or_eq]

theorem inWindow_iff_number (start stop now : DateTime) :
    inWindow start stop now = true ↔ start.number ≤ now.number ∧ now.number < stop.number := by
  rw [inWindow, Bool.and_eq_true, DateTime.lexLe_iff_number, DateTime.lexLt_iff_number]

/-- Settles O46: all three orders are those of the numbers. -/
theorem windowOrderIsLexicographic : Obligations.WindowOrderIsLexicographic := by
  refine ⟨DateTime.lexLt_iff_number, inWindow_iff_number, fun start stop now h => ?_⟩
  have hle : stop.number ≤ start.number := (DateTime.lexLe_iff_number stop start).1 h
  rw [Bool.eq_false_iff, ne_eq, inWindow_iff_number]
  omega

end Sys2Proof

namespace Sys2Proof.Machine

/-! ## The minutes of the hour -/

/-- An on-minute is congruent to the start and the transmit minute together, modulo `foxMax` (R208). -/
theorem isOnMinute_iff_dvd {start foxMax transmit : Nat} (ht : transmit < foxMax) (m : Nat) :
    isOnMinute start foxMax transmit m = true ↔ (foxMax : Int) ∣ (m : Int) - (start + transmit) := by
  have hmod : (transmit : Int) % foxMax = transmit := Int.emod_eq_of_lt (by omega) (by omega)
  rw [isOnMinute, decide_eq_true_eq, ← sub_sub, Int.dvd_iff_emod_eq_zero, ← Int.emod_eq_emod_iff_emod_sub_eq_zero, hmod]

/-- The end of the hour leaves the residue modulo `foxMax` alone (R210, R223). -/
theorem isOnMinute_mod_iff_dvd {start foxMax transmit : Nat} (ht : transmit < foxMax) (h60 : foxMax ∣ 60) (m : Nat) :
    isOnMinute start foxMax transmit (m % 60) = true ↔ (foxMax : Int) ∣ (m : Int) - (start + transmit) := by
  have hhour : (60 : Int) ∣ ((m % 60 : Nat) : Int) - m := by omega
  have hfox : (foxMax : Int) ∣ 60 := Int.natCast_dvd_natCast.2 h60
  rw [isOnMinute_iff_dvd ht]
  refine dvd_iff_dvd_of_dvd_sub ?_
  rw [sub_sub_sub_cancel_right]
  exact hfox.trans hhour

/-- The minute before, with minute 59 before minute 0 (R209). -/
theorem isOffMinute_eq {start foxMax transmit m : Nat} (hm : m ≤ 59) :
    isOffMinute start foxMax transmit m = isOnMinute start foxMax transmit (if m = 0 then 59 else m - 1) := by
  have hbefore : (((m : Int) - 1) % 60).toNat = if m = 0 then 59 else m - 1 := by
    split <;> omega
  rw [isOffMinute, hbefore]

/-- The closed form lies in `1 .. foxMax` (R210). -/
theorem onMinuteDistance_range {foxMax : Nat} (hpos : 0 < foxMax) (start transmit m : Nat) :
    0 < onMinuteDistance start foxMax transmit m ∧ onMinuteDistance start foxMax transmit m ≤ foxMax := by
  unfold onMinuteDistance
  generalize (transmit : Int) - ((m : Int) - start) = d
  have hnonneg : 0 ≤ d % foxMax := Int.emod_nonneg d (by omega)
  have hlt : d % foxMax < foxMax := Int.emod_lt_of_pos d (by omega)
  dsimp only
  split <;> omega

/-- The closed form leads to an on-minute (R208, R210). -/
theorem dvd_add_onMinuteDistance {foxMax : Nat} (hpos : 0 < foxMax) (start transmit m : Nat) :
    (foxMax : Int) ∣ ((m + onMinuteDistance start foxMax transmit m : Nat) : Int) - (start + transmit) := by
  unfold onMinuteDistance
  generalize hd : (transmit : Int) - ((m : Int) - start) = d
  have hnonneg : 0 ≤ d % foxMax := Int.emod_nonneg d (by omega)
  have hself : (foxMax : Int) ∣ d - d % foxMax := Int.dvd_self_sub_emod
  dsimp only
  split
  · next hzero =>
    have heq : ((m + foxMax : Nat) : Int) - (start + transmit) = foxMax - (d - d % foxMax) := by omega
    rw [heq]
    exact dvd_sub (dvd_refl _) hself
  · have heq : ((m + (d % foxMax).toNat : Nat) : Int) - (start + transmit) = -(d - d % foxMax) := by omega
    rw [heq]
    exact dvd_neg.2 hself

/-- Two minutes that are congruent modulo `foxMax` are `foxMax` or more apart. -/
theorem not_dvd_of_lt_onMinuteDistance {foxMax : Nat} (hpos : 0 < foxMax) {start transmit m j : Nat} (hj : 0 < j)
    (hlt : j < onMinuteDistance start foxMax transmit m) :
    ¬ (foxMax : Int) ∣ ((m + j : Nat) : Int) - (start + transmit) := by
  intro h
  obtain ⟨-, hmax⟩ := onMinuteDistance_range hpos start transmit m
  have hdiff := dvd_sub (dvd_add_onMinuteDistance hpos start transmit m) h
  rw [sub_sub_sub_cancel_right] at hdiff
  have hle := Int.le_of_dvd (by omega) hdiff
  omega

/-- Settles O45: an on-minute is a congruence, and the closed form is the least positive solution of it. -/
theorem nextOnMinuteIsTheLeast : Obligations.NextOnMinuteIsTheLeast := by
  refine ⟨fun start foxMax transmit m hpos hmax ht _ hm => ?_, fun s m => ⟨rfl, rfl, rfl⟩⟩
  have h60 : foxMax ∣ 60 := Config.params_legal.fox_divides foxMax hpos hmax
  obtain ⟨hk, hkmax⟩ := onMinuteDistance_range hpos start transmit m
  have hon := (isOnMinute_mod_iff_dvd ht h60 _).2 (dvd_add_onMinuteDistance hpos start transmit m)
  refine ⟨?_, isOffMinute_eq hm, _, hk, hkmax, rfl, hon, fun j hj hjk => ?_⟩
  · rw [isOnMinute_iff_dvd ht, dvd_iff_exists_eq_mul_left]
    exact exists_congr fun q => by omega
  · rw [Bool.eq_false_iff, ne_eq, isOnMinute_mod_iff_dvd ht h60]
    exact not_dvd_of_lt_onMinuteDistance hpos hj hjk

end Sys2Proof.Machine

/-! PROOF. The scheduler (spec/44_scheduler.md R200 to R218). One equation per branch of EVAL_WINDOW and EVAL_SLOT, put
together from what their parts do to an answered state `s.answered r f o`: an alarm adds its flag or its record, a
`GateUpdate()` that finds no edge or a start is an update of two fields, and one that stops the engine is a key-off with
its three fates. -/

namespace Sys2Proof.Machine

variable {p : Config.Params}

/-! ## The alarms on an answered state -/

/-- The flags an alarm write adds (R66). -/
def alarmFlags (r : Resp) : BitVec 8 := if r.rtcOk then 0 else Flag.commRtc.mask

/-- The records an alarm write adds (R66). -/
def alarmRecords (r : Resp) (o : OutRecord) : List OutRecord := if r.rtcOk then [o] else []

theorem zero_or_alarmFlags (r : Resp) : 0 ||| alarmFlags r = alarmFlags r := BitVec.zero_or

/-- `s` with the window alarm's target changed where the write succeeds (R66). -/
def State.Of.armed1 (r : Resp) (dt : DateTime) (s : State.Of p) : State.Of p :=
  { s with rtcAlarm1 := if r.rtcOk then dt else s.rtcAlarm1 }

/-- `s` with the slot alarm's target changed where the write succeeds (R66). -/
def State.Of.armed2 (r : Resp) (m : Nat) (s : State.Of p) : State.Of p :=
  { s with rtcAlarm2 := if r.rtcOk then BitVec.ofNat 6 m else s.rtcAlarm2 }

theorem rtcArm1_answered (dt : DateTime) (s : State.Of p) (r : Resp) (f : BitVec 8) (o : List OutRecord) :
    (s.answered r f o).rtcArm1 dt =
      (s.armed1 r dt).answered r (f ||| alarmFlags r) (o ++ alarmRecords r (.rtcA1 dt)) := by
  obtain ⟨hr : r.rtcOk = true, e⟩ | ⟨hr : r.rtcOk = false, e⟩ := rtcArm1_cases dt (s.answered r f o)
  · rw [e]
    simp [alarmFlags, alarmRecords, State.Of.armed1, hr, State.Of.answered, State.Of.emit]
  · rw [e]
    simp [alarmFlags, alarmRecords, State.Of.armed1, hr, State.Of.answered, State.Of.raise]

theorem rtcArm2_answered (m : Nat) (s : State.Of p) (r : Resp) (f : BitVec 8) (o : List OutRecord) :
    (s.answered r f o).rtcArm2 m =
      (s.armed2 r m).answered r (f ||| alarmFlags r) (o ++ alarmRecords r (.rtcA2 (BitVec.ofNat 6 m))) := by
  obtain ⟨hr : r.rtcOk = true, e⟩ | ⟨hr : r.rtcOk = false, e⟩ := rtcArm2_cases m (s.answered r f o)
  · rw [e]
    simp [alarmFlags, alarmRecords, State.Of.armed2, hr, State.Of.answered, State.Of.emit]
  · rw [e]
    simp [alarmFlags, alarmRecords, State.Of.armed2, hr, State.Of.answered, State.Of.raise]

/-- A minute fits the slot alarm (R44). -/
theorem toNat_ofNat_minute {m : Nat} (h : m < 60) : (BitVec.ofNat 6 m).toNat = m := by
  rw [BitVec.toNat_ofNat, Nat.mod_eq_of_lt (by omega)]

theorem notify_answered (c : Note) (s : State.Of p) (r : Resp) (f : BitVec 8) (o : List OutRecord) :
    (s.answered r f o).notify c = s.answered r f (o ++ [.note c]) := rfl

/-- `s` with the retry bit of the response (R207). -/
def State.Of.retryNoted (r : Resp) (s : State.Of p) : State.Of p := { s with winAlarmRetry := !r.rtcOk }

theorem armed1_of_failed {r : Resp} {dt : DateTime} {s : State.Of p} (hr : r.rtcOk = false) : s.armed1 r dt = s := by
  rw [State.Of.armed1, hr]
  rfl

theorem retryNoted_of_failed {r : Resp} {s : State.Of p} (hr : r.rtcOk = false) (hretry : s.winAlarmRetry = true) :
    s.retryNoted r = s := by
  rw [State.Of.retryNoted, hr, Bool.not_false, ← hretry]

theorem noteRetry_answered (s : State.Of p) (r : Resp) (f : BitVec 8) (o : List OutRecord) :
    noteRetry (s.answered r f o) = (s.retryNoted r).answered r f o := rfl

/-! ## The gate -/

/-- Where the engine is the registered gate there is no edge (R27, R181). -/
theorem gateUpdate_of_registered {s : State.Of p} (h : s.morseRunning = s.gate) : s.gateUpdate = s := by
  obtain ⟨hg, hr, -⟩ | ⟨hg, hr, -⟩ | ⟨-, e⟩ := gateUpdate_cases s
  · exact absurd (hr.symm.trans (h.trans hg)) Bool.false_ne_true
  · exact absurd (hg.symm.trans (h.symm.trans hr)) Bool.false_ne_true
  · exact e

/-- A `GateUpdate()` that does not stop the engine copies the gate, and asks for a restart at the rising edge (R181). -/
theorem gateUpdate_answered_of_not_closing {s : State.Of p} {b : Bool} {rise : Prop} [Decidable rise]
    (hclose : s.morseRunning = true → s.gate = true) (hb : s.gate = b)
    (hrise : s.gate = true ∧ s.morseRunning = false ↔ rise) (r : Resp) (f : BitVec 8) (o : List OutRecord) :
    (s.answered r f o).gateUpdate =
      State.Of.answered { s with morseRunning := b, resetFlag := if rise then true else s.resetFlag } r f o := by
  subst hb
  obtain ⟨hg, hr, e⟩ | ⟨hg, hr, -⟩ | ⟨hg, e⟩ := gateUpdate_cases (s.answered r f o)
  · rw [e, if_pos (hrise.1 ⟨hg, hr⟩)]
    exact congrArg (fun b => State.Of.answered { s with morseRunning := b, resetFlag := true } r f o) hg.symm
  · exact absurd (hg.symm.trans (hclose hr)) Bool.false_ne_true
  · have hno : ¬ rise := fun h => by
      obtain ⟨hopen, hstopped⟩ := hrise.2 h
      exact Bool.false_ne_true (hstopped.symm.trans (hg.symm.trans hopen))
    rw [e, if_neg hno]
    exact congrArg (fun b => State.Of.answered { s with morseRunning := b } r f o) hg.symm

/-- `s` with the engine stopped (R181). -/
def State.Of.engineStopped (s : State.Of p) : State.Of p := { s with morseRunning := false, resetFlag := false }

section

variable {s : State.Of p} (hrun : s.morseRunning = true) (hgate : s.gate = false)
include hrun hgate

/-- A `GateUpdate()` that finds the gate of a running engine closed is one key-off (R181). -/
theorem gateUpdate_startOp_of_closing (r : Resp) : (s.startOp r).gateUpdate = (s.engineStopped.startOp r).keyOff := by
  obtain ⟨hg, -, -⟩ | ⟨-, -, e⟩ | ⟨hg, -⟩ := gateUpdate_cases (s.startOp r)
  · exact absurd (hgate.symm.trans hg) Bool.false_ne_true
  · exact e
  · exact absurd (hgate.symm.trans (hg.trans hrun)) Bool.false_ne_true

/-! The fates of the key-off (R123). -/

theorem gateUpdate_startOp_of_claimed (hc : s.claimedByReader = true) (r : Resp) :
    (s.startOp r).gateUpdate =
      State.Of.answered { s.engineStopped with deferred := .turnOff } r Flag.deferred.mask [] := by
  rw [gateUpdate_startOp_of_closing hrun hgate, keyOff_startOp]
  exact if_pos hc

theorem gateUpdate_startOp_of_failed {r : Resp} (hc : s.claimedByReader = false) (ho : r.synOk = false) :
    (s.startOp r).gateUpdate = s.engineStopped.answered r Flag.commSyn.mask [] := by
  have hfree : ¬ s.engineStopped.claimedByReader = true := ne_true_of_eq_false hc
  rw [gateUpdate_startOp_of_closing hrun hgate, keyOff_startOp, if_neg hfree, if_neg (ne_true_of_eq_false ho)]

theorem gateUpdate_startOp_of_done {r : Resp} (hc : s.claimedByReader = false) (ho : r.synOk = true) :
    (s.startOp r).gateUpdate =
      State.Of.answered { s.engineStopped.synHolds .key 0 with keyed := false } r 0 (synRecords .key 0) := by
  have hfree : ¬ s.engineStopped.claimedByReader = true := ne_true_of_eq_false hc
  rw [gateUpdate_startOp_of_closing hrun hgate, keyOff_startOp, if_neg hfree, if_pos ho]
  rfl

end

/-! ## EVAL_WINDOW -/

section

variable {r : Resp} {now : DateTime} {s : State} (hm : s.mode = .run)
include hm

theorem exec_evalWindow_of_run : exec (.evalWindow r now) s = .next (evalWindowBody now (s.startOp r)) :=
  inRun_of_run (body := fun u => .next (evalWindowBody now u)) hm

theorem exec_evalWindow_of_illegal (hl : now.legal Config.params = false) :
    exec (.evalWindow r now) s = .next (s.answered r Flag.invalid.mask []) := by
  rw [exec_evalWindow_of_run hm, evalWindowBody, hl, Bool.not_false, if_pos rfl, raise_startOp]

/-- Without a transition only the retry is left (R207). -/
theorem exec_evalWindow_of_unchanged (hl : now.legal Config.params = true)
    (hw : s.winState = if inWindow s.cfgWinStart s.cfgWinStop now then .inWindow else .outOfWindow) :
    exec (.evalWindow r now) s = .next
      (if s.winAlarmRetry then
        noteRetry ((s.startOp r).rtcArm1 (if s.winState = .inWindow then s.cfgWinStop else s.cfgWinStart))
      else s.startOp r) := by
  have hsame : ¬ (if (s.startOp r).windowHolds now then WinState.inWindow else .outOfWindow) ≠ (s.startOp r).winState :=
    not_not.2 hw.symm
  rw [exec_evalWindow_of_run hm, evalWindowBody, hl, if_neg (by decide), if_neg hsame]
  rfl

/-- The transition into the window (R202, R205). -/
theorem exec_evalWindow_of_enter (hl : now.legal Config.params = true)
    (hin : inWindow s.cfgWinStart s.cfgWinStop now = true) (hw : s.winState ≠ .inWindow) :
    exec (.evalWindow r now) s = .next (noteRetry (enterWindow (s.startOp r))) := by
  have hholds : (s.startOp r).windowHolds now = true := hin
  have hchange : WinState.inWindow ≠ (s.startOp r).winState := hw.symm
  rw [exec_evalWindow_of_run hm, evalWindowBody, hl, if_neg (by decide), hholds, if_pos rfl, if_pos hchange, if_pos rfl]

/-- The transition out of the window (R202, R205). -/
theorem exec_evalWindow_of_leave (hl : now.legal Config.params = true)
    (hout : inWindow s.cfgWinStart s.cfgWinStop now = false) (hw : s.winState ≠ .outOfWindow) :
    exec (.evalWindow r now) s = .next (noteRetry (leaveWindow (s.startOp r))) := by
  have hholds : (s.startOp r).windowHolds now = false := hout
  have hchange : WinState.outOfWindow ≠ (s.startOp r).winState := hw.symm
  rw [exec_evalWindow_of_run hm, evalWindowBody, hl, if_neg (by decide), hholds, if_neg Bool.false_ne_true,
    if_pos hchange, if_neg nofun]

end

/-- The retry bit after a retried alarm is the answer of the clock (R207). -/
theorem noteRetry_rtcArm1_startOp (dt : DateTime) (r : Resp) (s : State.Of p) :
    noteRetry ((s.startOp r).rtcArm1 dt) =
      ((s.armed1 r dt).retryNoted r).answered r (alarmFlags r) (alarmRecords r (.rtcA1 dt)) := by
  rw [startOp_eq, rtcArm1_answered, noteRetry_answered, zero_or_alarmFlags, List.nil_append]

/-- Settles O39: an illegal `now`, and without a transition the retry with its two outcomes. -/
theorem evalWindowUnchanged : Obligations.EvalWindowUnchanged := by
  intro r now s hm
  refine ⟨exec_evalWindow_of_illegal hm, fun hl hw => ?_⟩
  rw [exec_evalWindow_of_unchanged hm hl hw, noteRetry_rtcArm1_startOp]
  refine ⟨fun hretry => ?_, fun hretry hr => ?_, fun hretry hr hin => ?_, fun hretry hr hout => ?_⟩
  · rw [if_neg (ne_true_of_eq_false hretry), startOp_eq]
  · rw [if_pos hretry, armed1_of_failed hr, retryNoted_of_failed hr hretry, alarmFlags, alarmRecords, hr]
    rfl
  · rw [if_pos hretry, if_pos hin, alarmFlags, alarmRecords, State.Of.armed1, State.Of.retryNoted, hr]
    rfl
  · have hne : ¬ s.winState = .inWindow := by rw [hout]; decide
    rw [if_pos hretry, if_neg hne, alarmFlags, alarmRecords, State.Of.armed1, State.Of.retryNoted, hr]
    rfl

/-- `s` with the window state changed (R202). -/
def State.Of.moved (w : WinState) (s : State.Of p) : State.Of p := { s with winState := w }

/-- The gate that a stopped engine finds inside the window (R180). -/
theorem gate_moved_inWindow (s : State.Of p) :
    (s.moved .inWindow).gate = ((decide (s.cfgFoxNumber = 0) || s.withinSlot) && decide (s.ccBand = .none)) := rfl

theorem gate_moved_outOfWindow (s : State.Of p) : (s.moved .outOfWindow).gate = false := rfl

/-- Into the window the alarm comes first, then the gate, then the notification (R205). -/
theorem enterWindow_startOp (r : Resp) (s : State.Of p) :
    enterWindow (s.startOp r) =
      (((s.armed1 r s.cfgWinStop).moved .inWindow).answered r (alarmFlags r)
        (alarmRecords r (.rtcA1 s.cfgWinStop))).gateUpdate.notify .windowEntered := by
  have harm : (s.startOp r).rtcArm1 (s.startOp r).cfgWinStop = _ := rtcArm1_answered s.cfgWinStop s r 0 []
  rw [enterWindow, harm, zero_or_alarmFlags]
  rfl

/-- Out of the window the gate comes first, then the alarm, then the notification (R205). -/
theorem leaveWindow_startOp (r : Resp) (s : State.Of p) :
    leaveWindow (s.startOp r) =
      (((s.moved .outOfWindow).startOp r).gateUpdate.rtcArm1 s.cfgWinStart).notify .windowLeft := by
  change ((((s.moved .outOfWindow).startOp r).gateUpdate.rtcArm1 _).notify .windowLeft) = _
  rw [gateUpdate_frame]
  rfl

/-- Settles O40: the alarm, the gate of a stopped engine, the notification. -/
theorem evalWindowEnters : Obligations.EvalWindowEnters := by
  intro r now s hm hl hin hw hs
  have hclose (h : s.morseRunning = true) : ((s.armed1 r s.cfgWinStop).moved .inWindow).gate = true :=
    absurd (hs.symm.trans h) Bool.false_ne_true
  have hrise : ((s.armed1 r s.cfgWinStop).moved .inWindow).gate = true ∧ s.morseRunning = false ↔
      (s.cfgFoxNumber = 0 ∨ s.withinSlot = true) ∧ s.ccBand = .none := by
    rw [gate_iff, and_iff_left hs]
    exact and_iff_right rfl
  rw [exec_evalWindow_of_enter hm hl hin hw, enterWindow_startOp,
    gateUpdate_answered_of_not_closing hclose (gate_moved_inWindow _) hrise, notify_answered, noteRetry_answered]
  rfl

/-- The end of the transition out of the window, after the gate (R205). -/
theorem windowLeft_answered (dt : DateTime) (s : State.Of p) (r : Resp) (f : BitVec 8) (o : List OutRecord) :
    noteRetry (((s.answered r f o).rtcArm1 dt).notify .windowLeft) =
      ((s.armed1 r dt).retryNoted r).answered r (f ||| alarmFlags r)
        (o ++ alarmRecords r (.rtcA1 dt) ++ [.note .windowLeft]) := by
  rw [rtcArm1_answered, notify_answered, noteRetry_answered]

/-- Settles O41: the fates of the gate, each with the alarm and the notification after it. -/
theorem evalWindowLeaves : Obligations.EvalWindowLeaves := by
  intro r now s hm hl hout hw f o hf ho
  subst hf ho
  have hgate := gate_moved_outOfWindow s
  rw [exec_evalWindow_of_leave hm hl hout hw, leaveWindow_startOp]
  refine ⟨fun hs => ?_, fun hrun hc => ?_, fun hrun hc hsyn => ?_, fun hrun hc hsyn => ?_⟩
  · have hstay : ((s.moved .outOfWindow).startOp r).morseRunning = ((s.moved .outOfWindow).startOp r).gate := hs
    rw [gateUpdate_of_registered hstay, startOp_eq, windowLeft_answered, zero_or_alarmFlags]
    rfl
  · rw [gateUpdate_startOp_of_claimed (s := s.moved .outOfWindow) hrun hgate hc, windowLeft_answered]
    rfl
  · rw [gateUpdate_startOp_of_failed (s := s.moved .outOfWindow) hrun hgate hc hsyn, windowLeft_answered]
    rfl
  · rw [gateUpdate_startOp_of_done (s := s.moved .outOfWindow) hrun hgate hc hsyn, windowLeft_answered,
      zero_or_alarmFlags]
    rfl

/-! ## EVAL_SLOT -/

/-- `s` with the slot opened or closed (R215). -/
def State.Of.slotSet (within : Bool) (s : State.Of p) : State.Of p := { s with withinSlot := within }

theorem slotSet_self {s : State.Of p} {within : Bool} (h : s.withinSlot = within) : s.slotSet within = s := by
  rw [State.Of.slotSet, ← h]

/-- The gate inside the slot (R180). -/
theorem gate_slotSet_true (s : State.Of p) :
    (s.slotSet true).gate = (decide (s.winState = .inWindow) && decide (s.ccBand = .none)) := by
  change (decide (s.winState = .inWindow) && (decide (s.cfgFoxNumber = 0) || true) && decide (s.ccBand = .none)) = _
  rw [Bool.or_true, Bool.and_true]

/-- The demonstration fox has no slot (R180). -/
theorem gate_slotSet_of_demo {s : State.Of p} (h : s.cfgFoxNumber = 0) (within : Bool) :
    (s.slotSet within).gate = s.gate := by
  simp [State.Of.gate, State.Of.slotSet, h]

/-- Outside the slot the gate of any other fox is closed (R180). -/
theorem gate_slotSet_false {s : State.Of p} (h : s.cfgFoxNumber ≠ 0) : (s.slotSet false).gate = false := by
  rw [Bool.eq_false_iff, ne_eq, gate_iff]
  rintro ⟨-, hdemo | hin, -⟩
  · exact h hdemo
  · cases hin

/-- Opening the slot closes no gate (R180). -/
theorem gate_slotSet_true_of_gate {s : State.Of p} (h : s.gate = true) : (s.slotSet true).gate = true := by
  obtain ⟨hw, -, hb⟩ := (gate_iff s).1 h
  exact (gate_iff _).2 ⟨hw, .inr rfl, hb⟩

/-- Closing the slot opens no gate (R180). -/
theorem gate_of_gate_slotSet_false {s : State.Of p} (h : (s.slotSet false).gate = true) : s.gate = true := by
  obtain ⟨hw, hf | hin, hb⟩ := (gate_iff _).1 h
  · exact (gate_iff s).2 ⟨hw, .inl hf, hb⟩
  · cases hin

/-- Closing the slot leaves a stopped engine and the demonstration fox with no edge of the gate (R181). -/
theorem registered_slotSet_false {s : State.Of p} (hreg : s.morseRunning = s.gate)
    (h : s.morseRunning = false ∨ s.cfgFoxNumber = 0) :
    (s.slotSet false).morseRunning = (s.slotSet false).gate := by
  obtain hstopped | hdemo := h
  · have hclosed : ¬ (s.slotSet false).gate = true := fun hopen =>
      Bool.false_ne_true (hstopped.symm.trans (hreg.trans (gate_of_gate_slotSet_false hopen)))
    exact hstopped.trans (Bool.eq_false_of_not_eq_true hclosed).symm
  · exact hreg.trans (gate_slotSet_of_demo hdemo false).symm

section

variable {r : Resp} {m : BitVec 6} {s : State} (hm : s.mode = .run)
include hm

theorem exec_evalSlot_of_run : exec (.evalSlot r m) s = evalSlotBody m (s.startOp r) := inRun_of_run hm

theorem exec_evalSlot_of_invalid (h : 59 < m.toNat) :
    exec (.evalSlot r m) s = .next (s.answered r Flag.invalid.mask []) := by
  rw [exec_evalSlot_of_run hm, evalSlotBody, if_pos h, raise_startOp]

variable (h : m.toNat ≤ 59) (hmax : s.cfgFoxMax ≠ 0)
include h hmax

/-- A legal minute takes one of the three branches (R215). -/
theorem exec_evalSlot_of_legal :
    exec (.evalSlot r m) s = .next
      (if s.onMinute m.toNat then slotOnBranch m.toNat (s.startOp r)
       else if s.offMinute m.toNat then slotOffBranch m.toNat (s.startOp r)
       else slotMisaligned m.toNat (s.startOp r)) := by
  have hmodulus : ¬ (s.startOp r).cfgFoxMax = 0 := hmax
  rw [exec_evalSlot_of_run hm, evalSlotBody, if_neg (Nat.not_lt.2 h), if_neg hmodulus]
  rfl

theorem exec_evalSlot_of_onMinute (hon : s.onMinute m.toNat = true) :
    exec (.evalSlot r m) s = .next (slotOnBranch m.toNat (s.startOp r)) := by
  rw [exec_evalSlot_of_legal hm h hmax, if_pos hon]

theorem exec_evalSlot_of_offMinute (hon : s.onMinute m.toNat = false) (hoff : s.offMinute m.toNat = true) :
    exec (.evalSlot r m) s = .next (slotOffBranch m.toNat (s.startOp r)) := by
  rw [exec_evalSlot_of_legal hm h hmax, if_neg (ne_true_of_eq_false hon), if_pos hoff]

theorem exec_evalSlot_of_misaligned (hon : s.onMinute m.toNat = false) (hoff : s.offMinute m.toNat = false) :
    exec (.evalSlot r m) s = .next (slotMisaligned m.toNat (s.startOp r)) := by
  rw [exec_evalSlot_of_legal hm h hmax, if_neg (ne_true_of_eq_false hon), if_neg (ne_true_of_eq_false hoff)]

end

/-- Inside the slot an on-minute is no edge: the alarm and nothing else (R215). -/
theorem slotOnBranch_of_inside {s : State.Of p} (hw : s.withinSlot = true) (m : Nat) (r : Resp) :
    slotOnBranch m (s.startOp r) = (s.startOp r).rtcArm2 (minuteAfter m) := by
  simp [slotOnBranch, hw]

/-- The rising edge of the slot: the gate, the alarm, the notification (R215). -/
theorem slotOnBranch_of_edge {s : State.Of p} (hw : s.withinSlot = false) (m : Nat) (r : Resp) :
    slotOnBranch m (s.startOp r) =
      (((s.slotSet true).startOp r).gateUpdate.rtcArm2 (minuteAfter m)).notify .slotOn := by
  simp only [slotOnBranch, startOp_withinSlot, hw]
  rfl

/-- Outside the slot an off-minute is no edge: the alarm and nothing else (R215). -/
theorem slotOffBranch_of_outside {s : State.Of p} (hw : s.withinSlot = false) (m : Nat) (r : Resp) :
    slotOffBranch m (s.startOp r) = ((s.slotSet false).startOp r).rtcArm2 (s.nextOn m) := by
  rw [slotSet_self hw]
  simp only [slotOffBranch, startOp_withinSlot, hw]
  rfl

/-- The falling edge of the slot: the gate, the alarm, the notification (R215). -/
theorem slotOffBranch_of_edge {s : State.Of p} (hw : s.withinSlot = true) (m : Nat) (r : Resp) :
    slotOffBranch m (s.startOp r) =
      (((s.slotSet false).startOp r).gateUpdate.rtcArm2 (s.nextOn m)).notify .slotOff := by
  simp only [slotOffBranch, startOp_withinSlot, hw]
  change (((s.slotSet false).startOp r).gateUpdate.rtcArm2 _).notify .slotOff = _
  rw [gateUpdate_frame]
  rfl

/-- A misaligned minute is an alarm of the last known state after the flag (R216). -/
theorem slotMisaligned_startOp (m : Nat) (r : Resp) (s : State.Of p) :
    slotMisaligned m (s.startOp r) = (s.answered r Flag.misaligned.mask []).rtcArm2
      (if s.withinSlot then minuteAfter m else s.nextOn m) := by
  rw [slotMisaligned, raise_startOp]
  rfl

/-- The end of an edge of the slot, after the gate (R215). -/
theorem slotEdge_answered (m : Nat) (c : Note) (s : State.Of p) (r : Resp) (f : BitVec 8) (o : List OutRecord) :
    ((s.answered r f o).rtcArm2 m).notify c =
      (s.armed2 r m).answered r (f ||| alarmFlags r)
        (o ++ alarmRecords r (.rtcA2 (BitVec.ofNat 6 m)) ++ [.note c]) := by
  rw [rtcArm2_answered, notify_answered]

/-- An alarm and nothing else (R66). -/
theorem rtcArm2_startOp (m : Nat) (s : State.Of p) (r : Resp) :
    (s.startOp r).rtcArm2 m =
      (s.armed2 r m).answered r (alarmFlags r) (alarmRecords r (.rtcA2 (BitVec.ofNat 6 m))) := by
  rw [startOp_eq, rtcArm2_answered, zero_or_alarmFlags, List.nil_append]

/-- Settles O42: no edge inside the slot, and at the edge a gate that can only open. -/
theorem evalSlotOnMinute : Obligations.EvalSlotOnMinute := by
  intro r m s hm h hmax hon hgate
  refine ⟨_, toNat_ofNat_minute (minuteAfter_lt m.toNat), fun hw => ?_, fun hw => ?_⟩
  · rw [exec_evalSlot_of_onMinute hm h hmax hon, slotOnBranch_of_inside hw, rtcArm2_startOp]
    rfl
  · have hclose (hrun : s.morseRunning = true) : (s.slotSet true).gate = true :=
      gate_slotSet_true_of_gate (hgate.symm.trans hrun)
    have hrise : (s.slotSet true).gate = true ∧ s.morseRunning = false ↔
        s.winState = .inWindow ∧ s.ccBand = .none ∧ s.morseRunning = false := by
      rw [gate_slotSet_true, Bool.and_eq_true, decide_eq_true_eq, decide_eq_true_eq, and_assoc]
    rw [exec_evalSlot_of_onMinute hm h hmax hon, slotOnBranch_of_edge hw, startOp_eq,
      gateUpdate_answered_of_not_closing hclose (gate_slotSet_true s) hrise, slotEdge_answered, zero_or_alarmFlags]
    rfl

/-- Settles O43: no edge outside the slot; at the edge the gate stays as it is, or the stop has its three fates. -/
theorem evalSlotOffMinute : Obligations.EvalSlotOffMinute := by
  intro r m s hm h hmax hon hoff hreg
  refine ⟨_, toNat_ofNat_minute (nextOn_lt s m.toNat), fun f o hf ho => ?_⟩
  subst hf ho
  rw [exec_evalSlot_of_offMinute hm h hmax hon hoff]
  refine ⟨fun hcase => ?_, fun hw hrun hfox hc => ?_, fun hw hrun hfox hc hsyn => ?_, fun hw hrun hfox hc hsyn => ?_⟩
  · cases hw : s.withinSlot with
    | false =>
      rw [slotOffBranch_of_outside hw, rtcArm2_startOp]
      rw [if_neg Bool.false_ne_true, List.append_nil]
      rfl
    | true =>
      have hstay : s.morseRunning = false ∨ s.cfgFoxNumber = 0 := hcase.resolve_left (by rw [hw]; decide)
      have hreg' := registered_slotSet_false hreg hstay
      rw [slotOffBranch_of_edge hw, gateUpdate_of_registered (s := (s.slotSet false).startOp r) hreg', startOp_eq,
        slotEdge_answered, zero_or_alarmFlags]
      rfl
  · rw [slotOffBranch_of_edge hw,
      gateUpdate_startOp_of_claimed (s := s.slotSet false) hrun (gate_slotSet_false hfox) hc, slotEdge_answered,
      if_pos hw]
    rfl
  · rw [slotOffBranch_of_edge hw,
      gateUpdate_startOp_of_failed (s := s.slotSet false) hrun (gate_slotSet_false hfox) hc hsyn, slotEdge_answered,
      if_pos hw]
    rfl
  · rw [slotOffBranch_of_edge hw,
      gateUpdate_startOp_of_done (s := s.slotSet false) hrun (gate_slotSet_false hfox) hc hsyn, slotEdge_answered,
      zero_or_alarmFlags, if_pos hw]
    rfl

/-- Settles O44: the alarm of a misaligned minute belongs to the last known state. -/
theorem evalSlotInvalidOrMisaligned : Obligations.EvalSlotInvalidOrMisaligned := by
  intro r m s hm
  refine ⟨exec_evalSlot_of_invalid hm, fun h hmax hon hoff => ?_⟩
  have htarget : (if s.withinSlot then minuteAfter m.toNat else s.nextOn m.toNat) < 60 := by
    split
    · exact minuteAfter_lt m.toNat
    · exact nextOn_lt s m.toNat
  rw [exec_evalSlot_of_misaligned hm h hmax hon hoff, slotMisaligned_startOp, rtcArm2_answered, alarmFlags, alarmRecords,
    State.Of.armed2]
  refine ⟨_, toNat_ofNat_minute htarget, fun hr => ?_, fun hr => ?_⟩
  · rw [hr]
    rfl
  · rw [hr]
    rfl

/-! ## The forced carrier -/

/-- From `s` to `t` the carrier and the engine are as they were, and no record added drives the bus (R218). -/
structure CarrierKept (s t : State.Of p) : Prop where
  keyed : t.keyed = s.keyed
  synBuf : t.synBuf = s.synBuf
  synAct : t.synAct = s.synAct
  ccBand : t.ccBand = s.ccBand
  morseRunning : t.morseRunning = s.morseRunning
  deferred : t.deferred = s.deferred
  quiet : (∀ o ∈ s.out, o.drivesBus = false) → ∀ o ∈ t.out, o.drivesBus = false

theorem CarrierKept.refl (s : State.Of p) : CarrierKept s s := ⟨rfl, rfl, rfl, rfl, rfl, rfl, id⟩

theorem CarrierKept.emit {s t : State.Of p} (h : CarrierKept s t) {o : OutRecord} (ho : o.drivesBus = false) :
    CarrierKept s (t.emit o) :=
  { h with
    quiet := fun hs q hq => by
      obtain hq | hq := List.mem_append.1 hq
      · exact h.quiet hs q hq
      · rw [List.mem_singleton.1 hq, ho] }

theorem CarrierKept.notify {s t : State.Of p} (h : CarrierKept s t) (c : Note) : CarrierKept s (t.notify c) :=
  h.emit rfl

theorem CarrierKept.raise {s t : State.Of p} (h : CarrierKept s t) (f : Flag) : CarrierKept s (t.raise f) := { h with }

theorem CarrierKept.rtcArm1 {s t : State.Of p} (h : CarrierKept s t) (dt : DateTime) :
    CarrierKept s (t.rtcArm1 dt) := by
  obtain ⟨-, e⟩ | ⟨-, e⟩ := rtcArm1_cases dt t <;> rw [e]
  · have harmed : CarrierKept s { t with rtcAlarm1 := dt } := { h with }
    exact harmed.emit rfl
  · exact h.raise .commRtc

theorem CarrierKept.rtcArm2 {s t : State.Of p} (h : CarrierKept s t) (m : Nat) : CarrierKept s (t.rtcArm2 m) := by
  obtain ⟨-, e⟩ | ⟨-, e⟩ := rtcArm2_cases m t <;> rw [e]
  · have harmed : CarrierKept s { t with rtcAlarm2 := BitVec.ofNat 6 m } := { h with }
    exact harmed.emit rfl
  · exact h.raise .commRtc

section

variable {s : State.Of p} (hb : s.ccBand ≠ .none) (hs : s.morseRunning = false)
include hb hs

/-- In continuous-carrier mode the gate is closed and the engine is stopped already: no edge (R180, R181). -/
theorem CarrierKept.gateUpdate {t : State.Of p} (h : CarrierKept s t) : CarrierKept s t.gateUpdate := by
  have hclosed : ¬ t.gate = true := fun hopen => by
    obtain ⟨-, -, hnone⟩ := (gate_iff t).1 hopen
    exact hb (h.ccBand.symm.trans hnone)
  rw [gateUpdate_of_registered ((h.morseRunning.trans hs).trans (Bool.eq_false_of_not_eq_true hclosed).symm)]
  exact h

theorem evalWindowBody_carrierKept (now : DateTime) : CarrierKept s (evalWindowBody now s) := by
  have hretry (u : State.Of p) (h : CarrierKept s u) : CarrierKept s (noteRetry u) := { h with }
  have hmoved (u : State.Of p) (w : WinState) (h : CarrierKept s u) : CarrierKept s (u.moved w) := { h with }
  obtain e | e | e | e | ⟨dt, e⟩ := evalWindowBody_cases now s <;> rw [e]
  · exact (CarrierKept.refl s).raise .invalid
  · exact .refl s
  · exact hretry _ (((hmoved _ .inWindow ((CarrierKept.refl s).rtcArm1 s.cfgWinStop)).gateUpdate hb hs).notify _)
  · exact hretry _ ((((hmoved _ .outOfWindow (.refl s)).gateUpdate hb hs).rtcArm1 _).notify _)
  · exact hretry _ ((CarrierKept.refl s).rtcArm1 dt)

theorem evalSlotBody_carrierKept {minute : BitVec 6} {t : State.Of p} (h : evalSlotBody minute s = .next t) :
    CarrierKept s t := by
  have hslot (b : Bool) : CarrierKept s (s.slotSet b) := { CarrierKept.refl s with }
  obtain rfl | ⟨b, m, c, rfl⟩ | ⟨u, m, rfl | rfl, rfl⟩ := evalSlotBody_cases h
  · exact (CarrierKept.refl s).raise .invalid
  · exact (((hslot b).gateUpdate hb hs).rtcArm2 m).notify c
  · exact (CarrierKept.refl u).rtcArm2 m
  · exact ((CarrierKept.refl s).raise .misaligned).rtcArm2 m

end

/-- Settles O47: whichever of the two evaluations it is, and in either mode, the carrier is kept from the start of the
operation on. -/
theorem schedulerLeavesTheForcedCarrier : Obligations.SchedulerLeavesTheForcedCarrier := by
  intro i s t hi hb hs h
  have hkept (r : Resp) (hk : CarrierKept (s.startOp r) t) :
      t.keyed = s.keyed ∧ t.synBuf = s.synBuf ∧ t.synAct = s.synAct ∧ t.ccBand = s.ccBand ∧ t.morseRunning = false ∧
        t.deferred = s.deferred ∧ ∀ o ∈ t.out, o.drivesBus = false :=
    ⟨hk.keyed, hk.synBuf, hk.synAct, hk.ccBand, hk.morseRunning.trans hs, hk.deferred, hk.quiet nofun⟩
  have hlocked (r : Resp) : CarrierKept (s.startOp r) (s.answered r Flag.locked.mask []) :=
    { CarrierKept.refl (s.startOp r) with }
  obtain ⟨r, now, rfl⟩ | ⟨r, m, rfl⟩ := hi
  · have hrun : inRun r s (fun u => .next (evalWindowBody now u)) = .next t := h
    refine hkept r (inRun_ensures hrun (hlocked r) fun _ u hu => ?_)
    rw [← Host.Outcome.next.inj hu]
    exact evalWindowBody_carrierKept (s := s.startOp r) hb hs now
  · have hrun : inRun r s (evalSlotBody m) = .next t := h
    exact hkept r (inRun_ensures hrun (hlocked r) fun _ u hu => evalSlotBody_carrierKept (s := s.startOp r) hb hs hu)

end Sys2Proof.Machine

/-! PROOF. The configuration operations (spec/45_config.md R240 to R261). A configuration write is a check around one
update: what the check refuses is INVALID and nothing else, what it passes is the update on an answered state. CFG_WPM
alone stores on a refusal too. RELOAD_END has the three fates of R245, the last a synthesizer group whose four
transactions leave all four registers written. -/

namespace Sys2Proof

/-- R15 and R258: the DateTimes that are refused. Format D has no bit for a date above 31 or a weekday above 7. -/
theorem DateTime.not_legal_iff (d : DateTime) :
    (!d.legal Config.params) = true ↔ 59 < d.second.toNat ∨ 59 < d.minute.toNat ∨ 23 < d.hour.toNat ∨ d.date = 0 ∨
      d.month = 0 ∨ 12 < d.month.toNat ∨ 99 < d.year.toNat ∨ d.weekday = 0 := by
  have hdate := d.date.isLt
  have hweekday := d.weekday.isLt
  rw [Bool.not_eq_true', ← Bool.not_eq_true, d.legal_params]
  bv_omega

end Sys2Proof

namespace Sys2Proof.Machine

variable {p : Config.Params}

/-! ## The operations without a refusal -/

/-- Settles O11: each is the start of an operation and at most one field. -/
theorem unconditionalOperations : Obligations.UnconditionalOperations := fun _ _ => ⟨rfl, rfl, rfl⟩

/-! ## A checked write -/

/-- In CONFIG mode an operation whose body always answers is that body on an answered state (R283). -/
theorem inConfig_next_of_config {r : Resp} {s : State.Of p} (f : State.Of p → State.Of p) (hm : s.mode = .config) :
    inConfig r s (fun u => .next (f u)) = .next (f (s.answered r 0 [])) :=
  inConfig_of_config (body := fun u => .next (f u)) hm

/-- Both fates of a write behind a check (R241). The check refuses exactly what `d` says. -/
theorem inConfig_of_check {c d : Prop} [Decidable c] [Decidable d] {r : Resp} {s : State.Of p}
    (f : State.Of p → State.Of p) (hm : s.mode = .config) (hcd : c ↔ d) :
    inConfig r s (fun u => .next (if c then u.raise .invalid else f u)) =
      .next (if d then s.answered r Flag.invalid.mask [] else f (s.answered r 0 [])) := by
  rw [inConfig_next_of_config (fun u => if c then u.raise .invalid else f u) hm, ← startOp_eq, raise_startOp]
  by_cases hd : d
  · rw [if_pos hd, if_pos (hcd.2 hd)]
  · rw [if_neg hd, if_neg (mt hcd.1 hd)]

/-- R251: the lengths that are refused. -/
theorem not_progLenInRange_iff (p : Config.Params) (len : BitVec 16) :
    (!progLenInRange p len) = true ↔ len.toNat < 1 ∨ p.progMax < len.toNat := by
  rw [Bool.not_eq_true', ← Bool.not_eq_true, progLenInRange_iff]
  omega

/-- R257: the slots that are refused. -/
theorem not_slotInRange_iff (n m t : BitVec 4) :
    (!slotInRange Config.params n m t) = true ↔
      5 < n.toNat ∨ m.toNat < 1 ∨ 5 < m.toNat ∨ m.toNat ≤ t.toNat := by
  rw [Bool.not_eq_true', ← Bool.not_eq_true, slotInRange_params]
  omega

/-! ## The writes of one register -/

/-- R248: both fates of CFG_WPM store. -/
theorem exec_cfgWpm_of_config {r : Resp} {value : BitVec 8} {s : State} (hm : s.mode = .config) :
    exec (.cfgWpm r value) s = .next (setCfgWpm value (s.startOp r)) := inConfig_next_of_config (setCfgWpm value) hm

/-- Settles O13: the range check chooses between the value and the default. -/
theorem cfgWpmStoresOrFallsBack : Obligations.CfgWpmStoresOrFallsBack := by
  intro r value s hm
  rw [exec_cfgWpm_of_config hm, setCfgWpm, ← wpmInRange_params]
  refine ⟨fun hrange => ?_, fun hrange => ?_⟩
  · rw [if_pos hrange, startOp_eq]
  · rw [if_neg hrange]
    exact congrArg _ (raise_startOp .invalid r { s with cfgWpm := 10 })

/-- Settles O14: the two enables are written without a check. -/
theorem cfgEnablesStore : Obligations.CfgEnablesStore := fun _ en _ hm =>
  ⟨inConfig_next_of_config (fun u => { u with cfgMorseEn := en }) hm,
    inConfig_next_of_config (fun u => { u with cfgModEn := en }) hm⟩

/-- Settles O17: both are checked writes. -/
theorem cfgFreqAndAmpStoreLegalValues : Obligations.CfgFreqAndAmpStoreLegalValues := fun _ hz value _ hm =>
  ⟨inConfig_of_check (fun u => { u with cfgFreq := hz }) hm (not_freqInRange_iff Config.params hz),
    inConfig_of_check (fun u => { u with cfgAmpPct := value }) hm (not_ampPctInRange_iff Config.params value)⟩

/-! ## The slot and the window -/

theorem exec_cfgSlot_of_config {r : Resp} {n m t : BitVec 4} {s : State} (hm : s.mode = .config) :
    exec (.cfgSlot r n m t) s = .next
      (if 5 < n.toNat ∨ m.toNat < 1 ∨ 5 < m.toNat ∨ m.toNat ≤ t.toNat then s.answered r Flag.invalid.mask []
       else { s.answered r 0 [] with cfgFoxNumber := n, cfgFoxMax := m, cfgTransmitMinute := t }) :=
  inConfig_of_check (fun u => { u with cfgFoxNumber := n, cfgFoxMax := m, cfgTransmitMinute := t }) hm
    (not_slotInRange_iff n m t)

/-- Settles O18: one check stands before all three registers. -/
theorem cfgSlotWritesAllOrNothing : Obligations.CfgSlotWritesAllOrNothing := by
  intro r n m t s hm
  rw [exec_cfgSlot_of_config hm]
  refine ⟨fun hn hmin hmax ht => ?_, fun hbad => ?_⟩
  · rw [if_neg (by omega)]
  · rw [if_pos hbad]

theorem exec_cfgWinStart_of_config {r : Resp} {d : DateTime} {s : State} (hm : s.mode = .config) :
    exec (.cfgWinStart r d) s = .next
      (if !d.legal Config.params then s.answered r Flag.invalid.mask []
       else { s.answered r 0 [] with cfgWinStart := d }) :=
  inConfig_of_check (fun u => { u with cfgWinStart := d }) hm Iff.rfl

theorem exec_cfgWinStop_of_config {r : Resp} {d : DateTime} {s : State} (hm : s.mode = .config) :
    exec (.cfgWinStop r d) s = .next
      (if !d.legal Config.params then s.answered r Flag.invalid.mask []
       else { s.answered r 0 [] with cfgWinStop := d }) :=
  inConfig_of_check (fun u => { u with cfgWinStop := d }) hm Iff.rfl

/-- Settles O19: both writes have the check of R15 and no other. -/
theorem cfgWindowStoresLegalDateTimes : Obligations.CfgWindowStoresLegalDateTimes := by
  intro r d s hm
  rw [exec_cfgWinStart_of_config hm, exec_cfgWinStop_of_config hm]
  refine ⟨fun hranges => ?_, fun hbad => ?_⟩
  · have hlegal : d.legal Config.params = true := d.legal_params.2 hranges
    rw [hlegal]
    exact ⟨rfl, rfl⟩
  · rw [if_pos (d.not_legal_iff.2 hbad), if_pos (d.not_legal_iff.2 hbad)]
    exact ⟨rfl, rfl⟩

/-! ## The ROMs -/

theorem exec_cfgProgLen_of_config {r : Resp} {len : BitVec 16} {s : State} (hm : s.mode = .config) :
    exec (.cfgProgLen r len) s = .next
      (if len.toNat < 1 ∨ 64 < len.toNat then s.answered r Flag.invalid.mask []
       else { s.answered r 0 [] with cfgProgLen := len.setWidth 9 }) :=
  inConfig_of_check (fun u => { u with cfgProgLen := len.setWidth 9 }) hm (not_progLenInRange_iff Config.params len)

theorem exec_cfgProgSym_of_config {r : Resp} {index : BitVec 8} {sym : Symbol} {s : State} (hm : s.mode = .config) :
    exec (.cfgProgSym r index sym) s = .next
      (if 64 ≤ index.toNat then s.answered r Flag.invalid.mask []
       else { s.answered r 0 [] with prog := s.prog.setIfInBounds index.toNat sym }) :=
  inConfig_of_check (fun u => { u with prog := u.prog.setIfInBounds index.toNat sym }) hm Iff.rfl

/-- Settles O15: a length in range fits its nine bits, and a symbol is stored at its index alone. -/
theorem cfgProgWritesLengthAndSymbols : Obligations.CfgProgWritesLengthAndSymbols := by
  intro r len index sym s hm
  rw [exec_cfgProgLen_of_config hm, exec_cfgProgSym_of_config hm]
  refine ⟨fun hlen => ?_, fun hlen => ?_, fun hindex => ?_, fun hindex => ?_⟩
  · have hfit : (len.setWidth 9).toNat = len.toNat :=
      (BitVec.toNat_setWidth 9 len).trans (Nat.mod_eq_of_lt (by omega))
    rw [if_neg (by omega)]
    exact ⟨_, rfl, hfit, rfl⟩
  · rw [if_pos hlen]
  · rw [if_neg (Nat.not_le.2 hindex)]
    exact ⟨_, rfl, Vector.getElem?_setIfInBounds_self_of_lt hindex,
      fun j hj => Vector.getElem?_setIfInBounds_ne hj.symm, rfl⟩
  · rw [if_pos hindex]

/-- R254: the operands that are refused. -/
theorem modTab_check_iff (p : Config.Params) (index : BitVec 8) (word : Word) :
    (decide (p.modTableLen ≤ index.toNat) || decide (p.ampWordMax < word)) = true ↔
      p.modTableLen ≤ index.toNat ∨ p.ampWordMax < word := by
  rw [Bool.or_eq_true, decide_eq_true_iff, decide_eq_true_iff]

/-- R254, for any parameters. -/
theorem execOf_cfgModTab_of_config {r : Resp} {index : BitVec 8} {word : Word} {s : State.Of p}
    (hm : s.mode = .config) :
    execOf p (.cfgModTab r index word) s = .next
      (if p.modTableLen ≤ index.toNat ∨ p.ampWordMax < word then s.answered r Flag.invalid.mask []
       else { s.answered r 0 [] with modTab := s.modTab.setIfInBounds index.toNat word }) :=
  inConfig_of_check (fun u => { u with modTab := u.modTab.setIfInBounds index.toNat word }) hm
    (modTab_check_iff p index word)

theorem execOf_cfgModTab_of_refused {r : Resp} {index : BitVec 8} {word : Word} {s : State.Of p}
    (hm : s.mode = .config) (hbad : p.modTableLen ≤ index.toNat ∨ p.ampWordMax < word) :
    execOf p (.cfgModTab r index word) s = .next (s.answered r Flag.invalid.mask []) := by
  rw [execOf_cfgModTab_of_config hm, if_pos hbad]

/-- A legal word is stored at its index and nowhere else (R254). -/
theorem execOf_cfgModTab_of_stored {r : Resp} {index : BitVec 8} {word : Word} {s : State.Of p}
    (hm : s.mode = .config) (hindex : index.toNat < p.modTableLen) (hword : word ≤ p.ampWordMax) :
    ∃ t, execOf p (.cfgModTab r index word) s = .next t ∧ t.modTab[index.toNat]? = some word ∧
      (∀ j : Nat, j ≠ index.toNat → t.modTab[j]? = s.modTab[j]?) ∧
      t = { s.answered r 0 [] with modTab := t.modTab } := by
  have hpassed : ¬ (p.modTableLen ≤ index.toNat ∨ p.ampWordMax < word) :=
    not_or.2 ⟨Nat.not_le.2 hindex, BitVec.not_lt.2 hword⟩
  rw [execOf_cfgModTab_of_config hm, if_neg hpassed]
  exact ⟨_, rfl, Vector.getElem?_setIfInBounds_self_of_lt hindex,
    fun j hj => Vector.getElem?_setIfInBounds_ne hj.symm, rfl⟩

/-- Settles O16: the law of any parameters, legal or not, and this machine's as its instance. -/
theorem cfgModTabStoresOneEntry : Obligations.CfgModTabStoresOneEntry :=
  ⟨fun _ _ _ _ _ _ hm => ⟨execOf_cfgModTab_of_stored hm, execOf_cfgModTab_of_refused hm⟩,
    fun r index word s hm => by
      rw [exec_eq_execOf]
      exact ⟨execOf_cfgModTab_of_stored hm, execOf_cfgModTab_of_refused hm⟩⟩

/-! ## RELOAD_END -/

theorem exec_reloadEnd_of_config {r : Resp} {s : State} (hm : s.mode = .config) :
    exec (.reloadEnd r) s = reloadEndBody (s.startOp r) := inConfig_of_config hm

theorem reloadEndBody_startOp_of_claimed {r : Resp} {s : State.Of p} (hc : s.claimedByReader = true) :
    reloadEndBody (s.startOp r) = .next (s.answered r Flag.busy.mask []) := by
  have hdenied : (!(s.startOp r).tryClaim) = true := by simp [State.Of.tryClaim, hc]
  rw [reloadEndBody, if_pos hdenied, raise_startOp]

theorem reloadEndBody_startOp_of_failed {r : Resp} {s : State.Of p} (hc : s.claimedByReader = false)
    (ho : r.synOk = false) : reloadEndBody (s.startOp r) = .next (s.answered r Flag.commSyn.mask []) := by
  have hfree : ¬ (!(s.startOp r).tryClaim) = true := by simp [State.Of.tryClaim, hc]
  have hfailed : (!(s.startOp r).resp.synOk) = true := by simp [ho]
  rw [reloadEndBody, if_neg hfree, if_pos hfailed, raise_startOp]

theorem reloadEndBody_startOp_of_done {r : Resp} {s : State.Of p} (hc : s.claimedByReader = false)
    (ho : r.synOk = true) (hw : s.cfgWpm.toNat ≠ 0) :
    reloadEndBody (s.startOp r) =
      .next (reloadScheduler (reloadMorse (p.wpmConst / s.cfgWpm.toNat) (reloadSynth (s.startOp r)))) := by
  have hfree : ¬ (!(s.startOp r).tryClaim) = true := by simp [State.Of.tryClaim, hc]
  have hdone : ¬ (!(s.startOp r).resp.synOk) = true := by simp [ho]
  have hunit : convertToUnit p (s.startOp r).cfgWpm.toNat = some (p.wpmConst / s.cfgWpm.toNat) :=
    convertToUnit_eq_some.2 ⟨hw, rfl⟩
  rw [reloadEndBody, if_neg hfree, if_neg hdone, hunit]

/-- A transaction during an operation adds its two records (R64). -/
theorem synTxn_answered (q : SynReg) (v : Word) (s : State.Of p) (r : Resp) (f : BitVec 8) (o : List OutRecord) :
    (s.answered r f o).synTxn q v = (s.synHolds q v).answered r f (o ++ synRecords q v) :=
  (synTxn_eq q v (s.answered r f o)).trans (congrArg _ (List.append_assoc o [.synW q v] [.synApply]))

/-- `s` after the synthesizer took a value in every register: nothing of the image before is left (R43). -/
def State.Of.synReloaded (power freq amp key : Word) (s : State.Of p) : State.Of p :=
  { s with synBuf := ⟨key, amp, freq, power⟩, synAct := ⟨key, amp, freq, power⟩ }

theorem synHolds_all (power freq amp key : Word) (s : State.Of p) :
    (((s.synHolds .power power).synHolds .freq freq).synHolds .amp amp).synHolds .key key =
      s.synReloaded power freq amp key := by
  simp only [State.Of.synHolds, State.Of.synReloaded, SynImage.set]

/-- The synthesizer group is four transactions, in this order, and the fields that go with them (R245). -/
theorem reloadSynth_eq (s : State.Of p) :
    reloadSynth s =
      { (((s.synTxn .power powerUp).synTxn .freq s.cfgFreq).synTxn .amp
          (p.ampWordOfPercent s.cfgAmpPct.toNat)).synTxn .key keyValueOff with
        poweredDown := false
        keyed := false
        ccBand := .none
        modulationEnabled := s.cfgModEn
        modPhase := 0
        modIndex := 0
        busAvailable := true } := by
  simp [reloadSynth]

/-- Settles O12: LOCKED outside CONFIG mode, then the three fates of the body. -/
theorem reloadEndReinitialises : Obligations.ReloadEndReinitialises := by
  intro r s
  refine ⟨fun hm => inConfig_of_run hm, fun hm hc => ?_, fun hm hc ho => ?_, fun hm hc ho hw => ?_⟩
  · rw [exec_reloadEnd_of_config hm, reloadEndBody_startOp_of_claimed hc]
  · rw [exec_reloadEnd_of_config hm, reloadEndBody_startOp_of_failed hc ho]
  · have hw0 : s.cfgWpm.toNat ≠ 0 := fun h0 => hw (BitVec.eq_of_toNat_eq h0)
    rw [exec_reloadEnd_of_config hm, reloadEndBody_startOp_of_done hc ho hw0, reloadSynth_eq,
      startOp_eq, synTxn_answered, synTxn_answered, synTxn_answered, synTxn_answered, synHolds_all]
    rfl

end Sys2Proof.Machine

/-! PROOF. The operating modes (spec/60_exceptions.md R283). Every operation is `ModeChecked`: a body that touches neither
LOCKED nor ILLEGAL, behind the mode check; what an operation answers in a mode that accepts it, and in one that does not,
is read off that. Who changes the mode is read off the frame `writes`: RELOAD_BEGIN, and RELOAD_END past its refusals. -/

namespace Sys2Proof.Machine

variable {p : Config.Params}

/-! ## The mode check of every operation -/

/-- In a mode that accepts it `i` is a body on the started state that keeps LOCKED and ILLEGAL as they are; in any other
it is LOCKED and nothing else (R283). -/
def ModeChecked (p : Config.Params) (i : Instr) : Prop :=
  ∃ body : State.Of p → Host.Outcome (State.Of p) Fault Refusal,
    (∀ u v, body u = .next v → KeepsRefusal u v) ∧
    ∀ s, execOf p i s =
      if accepts s.mode i then body (s.startOp i.resp) else .next (s.answered i.resp Flag.locked.mask [])

section

variable {i : Instr}

theorem ModeChecked.inRun {body : State.Of p → Host.Outcome (State.Of p) Fault Refusal}
    (hrun : accepts .run i = true) (hconfig : accepts .config i = false)
    (he : ∀ s, execOf p i s = Machine.inRun i.resp s body) (hb : ∀ u v, body u = .next v → KeepsRefusal u v) :
    ModeChecked p i := by
  refine ⟨body, hb, fun s => ?_⟩
  rw [he s]
  cases hm : s.mode with
  | run => rw [if_pos hrun, inRun_of_run hm]
  | config => rw [if_neg (ne_true_of_eq_false hconfig), inRun_of_config hm]

theorem ModeChecked.inConfig {body : State.Of p → Host.Outcome (State.Of p) Fault Refusal}
    (hconfig : accepts .config i = true) (hrun : accepts .run i = false)
    (he : ∀ s, execOf p i s = Machine.inConfig i.resp s body) (hb : ∀ u v, body u = .next v → KeepsRefusal u v) :
    ModeChecked p i := by
  refine ⟨body, hb, fun s => ?_⟩
  rw [he s]
  cases hm : s.mode with
  | run => rw [if_neg (ne_true_of_eq_false hrun), inConfig_of_run hm]
  | config => rw [if_pos hconfig, inConfig_of_config hm]

theorem keepsRefusal_of_next {f : State.Of p → State.Of p} (hf : ∀ u, KeepsRefusal u (f u)) (u v : State.Of p)
    (h : (.next (f u) : Host.Outcome (State.Of p) Fault Refusal) = .next v) : KeepsRefusal u v :=
  Host.Outcome.next.inj h ▸ hf u

theorem ModeChecked.inRun_next {f : State.Of p → State.Of p} (hrun : accepts .run i = true)
    (hconfig : accepts .config i = false) (he : ∀ s, execOf p i s = Machine.inRun i.resp s fun u => .next (f u))
    (hf : ∀ u, KeepsRefusal u (f u)) : ModeChecked p i := .inRun hrun hconfig he (keepsRefusal_of_next hf)

theorem ModeChecked.inConfig_next {f : State.Of p → State.Of p} (hconfig : accepts .config i = true)
    (hrun : accepts .run i = false) (he : ∀ s, execOf p i s = Machine.inConfig i.resp s fun u => .next (f u))
    (hf : ∀ u, KeepsRefusal u (f u)) : ModeChecked p i := .inConfig hconfig hrun he (keepsRefusal_of_next hf)

/-- An operation that both modes accept. -/
theorem ModeChecked.always {f : State.Of p → State.Of p} (hrun : accepts .run i = true)
    (hconfig : accepts .config i = true) (he : ∀ s, execOf p i s = .next (f (s.startOp i.resp)))
    (hf : ∀ u, KeepsRefusal u (f u)) : ModeChecked p i := by
  have haccepts (m : Mode) : accepts m i = true := by
    cases m with
    | run => exact hrun
    | config => exact hconfig
  exact ⟨fun u => .next (f u), keepsRefusal_of_next hf, fun s => (he s).trans (if_pos (haccepts s.mode)).symm⟩

theorem ModeChecked.execOf_of_refused {s : State.Of p} (h : ModeChecked p i) (ha : accepts s.mode i = false) :
    execOf p i s = .next (s.answered i.resp Flag.locked.mask []) := by
  obtain ⟨body, -, he⟩ := h
  rw [he s, if_neg (ne_true_of_eq_false ha)]

/-- An operation starts with every flag clear (R45) and an accepted one does not set LOCKED. -/
theorem ModeChecked.not_locked_of_accepted {s t : State.Of p} (hi : ModeChecked p i) (ha : accepts s.mode i = true)
    (h : execOf p i s = .next t) : Flag.locked.isSet t.flags = false := by
  obtain ⟨body, hb, he⟩ := hi
  rw [he s, if_pos ha] at h
  obtain ⟨hlocked, -⟩ := hb _ t h
  have hstart : Flag.locked.isSet (s.startOp i.resp).flags = false := by simp [Flag.isSet]
  exact hlocked.trans hstart

end

/-- The range or precondition check of the common gating, then the bus and the transaction (R121). -/
theorem ite_invalid_gated_keepsRefusal {c : Prop} [Decidable c] {s : State.Of p} {act : State.Of p → State.Of p}
    (hact : (act s).flags = s.flags) : KeepsRefusal s (if c then s.raise .invalid else s.gated act) := by
  split
  · exact raise_keepsRefusal .invalid s
  · exact gated_keepsRefusal (.of_flags hact)

theorem ccEnable_modeChecked (r : Resp) (band : BitVec 2) : ModeChecked p (.ccEnable r band) := by
  refine .inRun_next rfl rfl (fun s => show execCcEnable r band s = _ from rfl) fun u => ?_
  split
  · exact raise_keepsRefusal .invalid u
  next b _ => exact ite_invalid_gated_keepsRefusal (enableCarrierNow_flags b u)

theorem ccDisable_modeChecked (r : Resp) : ModeChecked p (.ccDisable r) := by
  refine .inRun_next rfl rfl (fun s => show execCcDisable r s = _ from rfl) fun u => ?_
  split
  · exact .refl u
  · exact gated_keepsRefusal (disableCarrierNow_keepsRefusal u)

/-- Every operation is a body behind the mode check. -/
theorem modeChecked_of_isOperation (p : Config.Params) {i : Instr} (ho : i.isOperation = true) : ModeChecked p i := by
  cases i with
  | nop r => exact .always (f := fun u => u) rfl rfl (fun _ => rfl) .refl
  | readerClaim r =>
    exact .always (f := fun u => { u with claimedByReader := true }) rfl rfl (fun _ => rfl) fun _ => .of_flags rfl
  | readerRelease r =>
    exact .always (f := fun u => State.Of.drainDeferred { u with claimedByReader := false }) rfl rfl
      (fun _ => rfl) fun u => drainDeferred_keepsRefusal { u with claimedByReader := false }
  | reloadBegin r =>
    exact .always (f := fun u => { u with mode := .config }) rfl rfl (fun _ => rfl) fun _ => .of_flags rfl
  | tickMorse r => exact .inRun rfl rfl (fun _ => rfl) fun _ _ => tickMorseBody_keepsRefusal
  | tickMod r => exact .inRun rfl rfl (fun _ => rfl) fun _ _ => tickModBody_keepsRefusal
  | evalWindow r now => exact .inRun_next rfl rfl (fun _ => rfl) (evalWindowBody_keepsRefusal now)
  | evalSlot r minute => exact .inRun rfl rfl (fun _ => rfl) fun _ _ => evalSlotBody_keepsRefusal
  | synSetfreq | synSetamp => exact .inRun_next rfl rfl (fun _ => rfl) fun _ => ite_invalid_gated_keepsRefusal rfl
  | synKeyon r => exact .inRun_next rfl rfl (fun _ => rfl) keyOn_keepsRefusal
  | synKeyoff r => exact .inRun_next rfl rfl (fun _ => rfl) keyOff_keepsRefusal
  | synPwrdown r =>
    exact .inRun_next rfl rfl (fun s => show execSynPwrdown r s = _ from rfl) fun u =>
      ite_invalid_gated_keepsRefusal (powerDownNow_flags u)
  | synPwrup r => exact .inRun_next rfl rfl (fun _ => rfl) fun _ => gated_keepsRefusal (.of_flags rfl)
  | ccEnable r band => exact ccEnable_modeChecked r band
  | ccDisable r => exact ccDisable_modeChecked r
  | reloadEnd r => exact .inConfig rfl rfl (fun _ => rfl) fun _ _ => reloadEndBody_keepsRefusal
  | cfgWpm r value => exact .inConfig_next rfl rfl (fun _ => rfl) (setCfgWpm_keepsRefusal value)
  | cfgMorseEn r en =>
    exact .inConfig_next (f := fun u => { u with cfgMorseEn := en }) rfl rfl (fun _ => rfl) fun _ => .of_flags rfl
  | cfgModEn r en =>
    exact .inConfig_next (f := fun u => { u with cfgModEn := en }) rfl rfl (fun _ => rfl) fun _ => .of_flags rfl
  | cfgProgLen | cfgProgSym | cfgModTab | cfgFreq | cfgAmp | cfgSlot | cfgWinStart | cfgWinStop =>
    exact .inConfig_next rfl rfl (fun _ => rfl) fun _ => ite_invalid_keepsRefusal rfl
  | dot | dash | lsp | wsp => exact absurd ho (by decide)

/-! ## Who changes the mode -/

section

variable {i : Instr} {r : Resp} {s t : State.Of p}

/-- The mode is owned by the reload bracket. -/
theorem writes_mode (h₁ : ∀ r, i ≠ .reloadBegin r) (h₂ : ∀ r, i ≠ .reloadEnd r) : (writes i s t).mode = s.mode := by
  cases i with
  | reloadBegin r => exact absurd rfl (h₁ r)
  | reloadEnd r => exact absurd rfl (h₂ r)
  | _ => rfl

/-- RELOAD_END changes the mode past its refusals only (R245): from CONFIG to RUN, on a free bus, with its transactions
done. -/
theorem execReloadEnd_changes_mode (h : execReloadEnd r s = .next t) (hne : t.mode ≠ s.mode) :
    s.claimedByReader = false ∧ r.synOk = true ∧ t.mode = .run := by
  have hrefused (f : BitVec 8) : t ≠ s.answered r f [] := fun e => hne (e ▸ rfl)
  obtain ⟨hm, hb⟩ | ⟨-, hlocked⟩ := inConfig_next h
  · have hfree : s.claimedByReader = false := eq_false_of_ne_true fun hc =>
      hrefused _ (Host.Outcome.next.inj (hb.symm.trans (reloadEndBody_startOp_of_claimed hc)))
    have hdone : r.synOk = true := eq_true_of_ne_false fun ho =>
      hrefused _ (Host.Outcome.next.inj (hb.symm.trans (reloadEndBody_startOp_of_failed hfree ho)))
    refine ⟨hfree, hdone, ?_⟩
    cases ht : t.mode with
    | run => rfl
    | config => exact absurd (ht.trans hm.symm) hne
  · exact absurd hlocked (hrefused _)

end

/-- Settles O10: the two clauses about acceptance are the mode check of `ModeChecked`, and the mode is changed by the
reload bracket only. -/
theorem modesAcceptAndLock : Obligations.ModesAcceptAndLock := by
  refine ⟨rfl, fun i s ho ha => ?_, fun i s t ho ha h => ?_, fun i s t _ h hne => ?_⟩
  · rw [exec_eq_execOf]
    exact (modeChecked_of_isOperation Config.params ho).execOf_of_refused ha
  · rw [exec_eq_execOf] at h
    exact (modeChecked_of_isOperation Config.params ho).not_locked_of_accepted ha h
  · rw [exec_eq_execOf] at h
    by_cases hbegin : ∃ r, i = .reloadBegin r
    · obtain ⟨r, rfl⟩ := hbegin
      cases h
      exact .inl ⟨r, rfl, rfl⟩
    by_cases hend : ∃ r, i = .reloadEnd r
    · obtain ⟨r, rfl⟩ := hend
      exact .inr ⟨r, rfl, execReloadEnd_changes_mode h hne⟩
    · have hw : t = writes i s t := execOf_writes h
      have hkept := writes_mode (s := s) (t := t) (not_exists.1 hbegin) (not_exists.1 hend)
      exact absurd ((congrArg State.Of.mode hw).trans hkept) hne

end Sys2Proof.Machine

/-! PROOF. Waiting and totality (spec/70_reset_and_hazards.md R302, R319). A step stops only where one of four operations
meets a value the spec does not give: a fetch outside the program, a read outside the table, the unit of a rate of 0 and a
remainder modulo 0. The invariants R47 put each of these out of reach; every other operation answers by its form. -/

namespace Sys2Proof.Machine

variable {p : Config.Params}

/-! ## The waiting step -/

/-- With no word to take a step waits, unchanged, whatever the dispatcher (R302; log 1). -/
theorem stepBy_of_no_stimulus {run : Instr → State.Of p → Host.Outcome (State.Of p) Fault Refusal} {s : State.Of p}
    (hs : s.stimulus = []) : stepBy run s = .next s := by
  rw [stepBy, State.Of.fetch, hs]

/-- Settles O9: the waiting branch of the step. -/
theorem noStimulusNoStep : Obligations.NoStimulusNoStep := fun _ hs => stepBy_of_no_stimulus hs

/-! ## Outcomes that answer a next state -/

/-- The outcome is neither a fault nor a refusal. -/
def Answers (o : Host.Outcome (State.Of p) Fault Refusal) : Prop := ∃ t, o = .next t

theorem answers_next (t : State.Of p) : Answers (.next t) := ⟨t, rfl⟩

theorem Answers.andThen {o : Host.Outcome (State.Of p) Fault Refusal} (ho : Answers o) (f : State.Of p → State.Of p) :
    Answers (andThen o f) := by
  obtain ⟨u, rfl⟩ := ho
  exact answers_next (f u)

/-- A RUN operation answers where its body does, which runs in RUN mode only (R283). -/
theorem Answers.inRun {r : Resp} {s : State.Of p} {body : State.Of p → Host.Outcome (State.Of p) Fault Refusal}
    (hb : s.mode = .run → Answers (body (s.startOp r))) : Answers (inRun r s body) := by
  cases hm : s.mode with
  | run => rw [inRun_of_run hm]; exact hb hm
  | config => rw [inRun_of_config hm]; exact answers_next _

/-- The same for a CONFIG operation (R283). -/
theorem Answers.inConfig {r : Resp} {s : State.Of p} {body : State.Of p → Host.Outcome (State.Of p) Fault Refusal}
    (hb : s.mode = .config → Answers (body (s.startOp r))) : Answers (inConfig r s body) := by
  cases hm : s.mode with
  | run => rw [inConfig_of_run hm]; exact answers_next _
  | config => rw [inConfig_of_config hm]; exact hb hm

/-! ## The four bodies that can stop -/

/-- A unit step with its cursor in the program has a symbol to load (R47 (c), R61). -/
theorem unitStep_answers {s : State.Of p} (hindex : s.symbolIndex.toNat < s.cfgProgLen.toNat)
    (hlen : s.cfgProgLen.toNat ≤ p.progMax) : Answers (unitStep s) := by
  by_cases hunits : s.unitsRemaining = 0
  · exact ⟨_, unitStep_of_fetch hunits (progRead_isSome s _ hindex hlen)⟩
  · exact ⟨_, if_neg hunits⟩

/-- A tick of the running engine, past its restart (R170, R179). -/
theorem tickMorseBody_answers_of_started {s : State.Of p} (hrun : s.morseRunning = true) (hreset : s.resetFlag = false)
    (hindex : s.symbolIndex.toNat < s.cfgProgLen.toNat) (hlen : s.cfgProgLen.toNat ≤ p.progMax) :
    Answers (tickMorseBody s) := by
  cases hen : s.cfgMorseEn with
  | false => exact ⟨_, tickMorseBody_of_disabled hrun hreset hen⟩
  | true =>
    by_cases hrate : s.rateCount = 0
    · obtain ⟨_, hu⟩ := unitStep_answers hindex hlen
      exact ⟨_, tickMorseBody_of_unitStep hrun hreset hen hrate hu⟩
    · exact ⟨_, tickMorseBody_of_counting hrun hreset hen hrate⟩

/-- A restart fetches at 0, which is in the program because the cursor was (R171). -/
theorem tickMorseBody_answers {s : State.Of p} (hindex : s.symbolIndex.toNat < s.cfgProgLen.toNat)
    (hlen : s.cfgProgLen.toNat ≤ p.progMax) : Answers (tickMorseBody s) := by
  cases hrun : s.morseRunning with
  | false => exact ⟨_, tickMorseBody_of_stopped hrun⟩
  | true =>
    cases hreset : s.resetFlag with
    | false => exact tickMorseBody_answers_of_started hrun hreset hindex hlen
    | true =>
      rw [tickMorseBody_of_reset hrun hreset]
      exact tickMorseBody_answers_of_started (s := restartCursor s) hrun rfl (Nat.zero_lt_of_lt hindex) hlen

/-- The index that a cycle's write advances to is in the table (R47 (e), R62). -/
theorem tickModBody_answers (hp : p.Legal) {s : State.Of p} (hphase : s.modPhase.toNat < p.modCycle)
    (hindex : s.modIndex.toNat < p.modTableLen) : Answers (tickModBody s) := by
  by_cases hidle : s.modulationEnabled = false ∨ s.keyed = false
  · exact ⟨_, tickModBody_of_idle hidle⟩
  · obtain ⟨hen, hkeyed⟩ : s.modulationEnabled = true ∧ s.keyed = true := by simpa using hidle
    obtain hcount | hend := Nat.lt_or_eq_of_le (Nat.succ_le_of_lt hphase)
    · exact ⟨_, tickModBody_of_counting hen hkeyed hcount⟩
    · have hread := tabRead_isSome s _ (wrapInc_lt s.modIndex _ hindex hp.table_width)
      exact ⟨_, tickModBody_of_cycleEnd hp hen hkeyed hend hread⟩

/-- A rate above 0 has a unit (R167). -/
theorem reloadEndBody_answers {s : State.Of p} {r : Resp} (hwpm : s.cfgWpm.toNat ≠ 0) :
    Answers (reloadEndBody (s.startOp r)) := by
  cases hc : s.claimedByReader with
  | true => exact ⟨_, reloadEndBody_startOp_of_claimed hc⟩
  | false =>
    cases ho : r.synOk with
    | false => exact ⟨_, reloadEndBody_startOp_of_failed hc ho⟩
    | true => exact ⟨_, reloadEndBody_startOp_of_done hc ho hwpm⟩

/-- A `foxMax` above 0 has its remainders (R208). -/
theorem evalSlotBody_answers {s : State.Of p} (minute : BitVec 6) (hmax : s.cfgFoxMax ≠ 0) :
    Answers (evalSlotBody minute s) := by
  by_cases hm : 59 < minute.toNat
  · exact ⟨_, if_pos hm⟩
  · exact ⟨_, (if_neg hm).trans (if_neg hmax)⟩

/-! ## Every instruction and every step -/

/-- A legal rate is above 0 (R9, R41). -/
theorem cfgWpm_ne_zero (hp : p.Legal) {s : State.Of p} (hs : s.ConfigLegal) : s.cfgWpm.toNat ≠ 0 := by
  obtain ⟨hmin, -⟩ := (wpmInRange_iff p s.cfgWpm).1 hs.wpm
  exact Nat.ne_of_gt (Nat.le_trans hp.wpm_one hmin)

/-- A legal `foxMax` is above 0 (R9, R41). -/
theorem cfgFoxMax_ne_zero (hp : p.Legal) {s : State.Of p} (hs : s.ConfigLegal) : s.cfgFoxMax ≠ 0 := by
  obtain ⟨-, hmin, -, -⟩ := (slotInRange_iff p _ _ _).1 hs.slot
  intro hzero
  exact absurd (Nat.le_trans (foxMaxMin_pos hp) (hzero ▸ hmin)) (by decide)

/-- Every instruction is total on the states of the invariants (R319): four need them, the others have no branch that
stops. -/
theorem execOf_answers (hp : p.Legal) (i : Instr) {s : State.Of p} (hs : s.Inv) : Answers (execOf p i s) := by
  have hcfg := hs.config_legal
  obtain ⟨-, hlen⟩ := hcfg.progLen
  unfold execOf
  cases i with
  | tickMorse r => exact .inRun fun hm => tickMorseBody_answers (s := s.startOp r) (hs.index_in_program hm) hlen
  | tickMod r => exact .inRun fun _ => tickModBody_answers (s := s.startOp r) hp hs.phase_in_cycle hs.mod_index_in_table
  | evalSlot r minute =>
    exact .inRun fun _ => evalSlotBody_answers (s := s.startOp r) minute (cfgFoxMax_ne_zero (s := s) hp hcfg)
  | reloadEnd r => exact .inConfig fun _ => reloadEndBody_answers (cfgWpm_ne_zero hp hcfg)
  | nop | readerClaim | readerRelease | reloadBegin | dot | dash | lsp | wsp => exact answers_next _
  | evalWindow | synSetfreq | synSetamp | synKeyon | synKeyoff | synPwrdown | synPwrup | ccEnable | ccDisable =>
    exact .inRun fun _ => ⟨_, rfl⟩
  | cfgWpm | cfgMorseEn | cfgProgLen | cfgProgSym | cfgModEn | cfgModTab | cfgFreq | cfgAmp | cfgSlot | cfgWinStart
  | cfgWinStop =>
    exact .inConfig fun _ => ⟨_, rfl⟩

/-- A step waits, answers an illegal word, or runs an instruction on a state that still meets the invariants (R11). -/
theorem stepOf_answers (hp : p.Legal) {s : State.Of p} (hs : s.Inv) : Answers (stepOf p s) := by
  unfold stepOf
  obtain ⟨-, e⟩ | ⟨w, rest, err, -, -, e⟩ | ⟨w, rest, i, -, -, e⟩ := stepBy_cases (execOf p) s <;> rw [e]
  · exact answers_next s
  · exact answers_next _
  · exact execOf_answers hp i (inv_ports hs rest s.flags s.out)

/-- Settles O51: every instruction is total under the invariants, so the step is, and this machine is an instance. -/
theorem invariantStatesNeverStop : Obligations.InvariantStatesNeverStop :=
  ⟨fun _ hp _ hs => stepOf_answers hp hs,
    fun s hs => (step_eq_stepOf s).symm ▸ stepOf_answers Config.params_legal hs⟩

end Sys2Proof.Machine
